-- ==== Sys2Proof/Word.lean ====
section
/-! DEFINITION. The widths of the machine: its data, instruction and address words (00_scope.md R2, R5). -/

namespace Sys2Proof

/-- A data value: W, the ALU and every file register are 8 bits wide (00_scope.md R2 `DATA_BITS`). -/
abbrev Byte := BitVec 8

/-- An instruction word of 14 bits (30_encoding.md R80). -/
abbrev InstrWord := BitVec 14

/-- A program address. `PC_BITS` is at most 13 (log 25): the bits above it are 0. -/
abbrev ProgAddr := BitVec 13

/-- A full data-memory address, 000h to 1FFh (20_memory.md R53). -/
abbrev DataAddr := BitVec 9

/-- The file register field `f` of an instruction (30_encoding.md R87). -/
abbrev FileField := BitVec 7

/-- The bit number field `b` of an instruction (30_encoding.md R89). -/
abbrev BitField := BitVec 3

end Sys2Proof
end

