-- ==== Sys2Proof/Syntax.lean ====
section
/-! DEFINITION. The 35 instructions of Table 5-1, one constructor per row of spec/opcode_table.json. The operand
fields have the widths of the encoding, so a field out of range cannot be written. -/

namespace Sys2Proof

/-- The destination bit `d`: 0 selects W, 1 selects the file register (30_encoding.md R88). -/
inductive Dest where
  | w
  | f
deriving DecidableEq, Repr

/-- An instruction with its operands (30_encoding.md R97). The don't-care bits of an encoding (R92) are no operand.
`ret` is RETURN, whose name is a Lean keyword. -/
inductive Instr where
  | addwf (f : FileField) (d : Dest)
  | andwf (f : FileField) (d : Dest)
  | clrf (f : FileField)
  | clrw
  | comf (f : FileField) (d : Dest)
  | decf (f : FileField) (d : Dest)
  | decfsz (f : FileField) (d : Dest)
  | incf (f : FileField) (d : Dest)
  | incfsz (f : FileField) (d : Dest)
  | iorwf (f : FileField) (d : Dest)
  | movf (f : FileField) (d : Dest)
  | movwf (f : FileField)
  | nop
  | rlf (f : FileField) (d : Dest)
  | rrf (f : FileField) (d : Dest)
  | subwf (f : FileField) (d : Dest)
  | swapf (f : FileField) (d : Dest)
  | xorwf (f : FileField) (d : Dest)
  | bcf (f : FileField) (b : BitField)
  | bsf (f : FileField) (b : BitField)
  | btfsc (f : FileField) (b : BitField)
  | btfss (f : FileField) (b : BitField)
  | addlw (k : Byte)
  | andlw (k : Byte)
  | call (k : BitVec 11)
  | clrwdt
  | goto (k : BitVec 11)
  | iorlw (k : Byte)
  | movlw (k : Byte)
  | retfie
  | retlw (k : Byte)
  | ret
  | sleep
  | sublw (k : Byte)
  | xorlw (k : Byte)
deriving DecidableEq, Repr

end Sys2Proof
end

