-- ==== Sys2Proof/Decode.lean ====
section
/-! DEFINITION. The decoder (total on the 16384 words, rejecting the undefined ones by name) and the encoder, both
written from Table 5-1 as 30_encoding.md gives it. -/

namespace Sys2Proof

/-- Why a word is no instruction. -/
inductive DecodeReject where
  /-- The word matches no row of Table 5-1 (30_encoding.md R95). -/
  | undefinedWord (w : InstrWord)
deriving DecidableEq, Repr

/-- Field `f`, bits 6:0 (30_encoding.md R87). -/
def fieldF (w : InstrWord) : FileField := w.extractLsb' 0 7

/-- Field `d`, bit 7 (30_encoding.md R88). -/
def fieldD (w : InstrWord) : Dest := if w.getLsbD 7 then .f else .w

/-- Field `b`, bits 9:7 (30_encoding.md R89). -/
def fieldB (w : InstrWord) : BitField := w.extractLsb' 7 3

/-- Field `k` of the literal format, bits 7:0 (30_encoding.md R90). -/
def fieldK8 (w : InstrWord) : Byte := w.extractLsb' 0 8

/-- Field `k` of CALL and GOTO, bits 10:0 (30_encoding.md R91). -/
def fieldK11 (w : InstrWord) : BitVec 11 := w.extractLsb' 0 11

/-- Bits 13:12 = 00, bits 11:8 = 0000, bit 7 = 0: NOP (bits 6:5 are don't-care) and the operand-less words
(30_encoding.md R86, R94). -/
def decodeOperandless (w : InstrWord) : Except DecodeReject Instr :=
  if (w.extractLsb' 0 5).toNat = 0 then .ok .nop
  else match (w.extractLsb' 0 7).toNat with
    | 0x08 => .ok .ret
    | 0x09 => .ok .retfie
    | 0x63 => .ok .sleep
    | 0x64 => .ok .clrwdt
    | _ => .error (.undefinedWord w)

/-- Bits 13:12 = 00 (30_encoding.md R82, R94). -/
def decodeByteOriented (w : InstrWord) : Except DecodeReject Instr :=
  match (w.extractLsb' 8 4).toNat with
  | 0x0 => if w.getLsbD 7 then .ok (.movwf (fieldF w)) else decodeOperandless w
  | 0x1 => if w.getLsbD 7 then .ok (.clrf (fieldF w)) else .ok .clrw
  | 0x2 => .ok (.subwf (fieldF w) (fieldD w))
  | 0x3 => .ok (.decf (fieldF w) (fieldD w))
  | 0x4 => .ok (.iorwf (fieldF w) (fieldD w))
  | 0x5 => .ok (.andwf (fieldF w) (fieldD w))
  | 0x6 => .ok (.xorwf (fieldF w) (fieldD w))
  | 0x7 => .ok (.addwf (fieldF w) (fieldD w))
  | 0x8 => .ok (.movf (fieldF w) (fieldD w))
  | 0x9 => .ok (.comf (fieldF w) (fieldD w))
  | 0xA => .ok (.incf (fieldF w) (fieldD w))
  | 0xB => .ok (.decfsz (fieldF w) (fieldD w))
  | 0xC => .ok (.rrf (fieldF w) (fieldD w))
  | 0xD => .ok (.rlf (fieldF w) (fieldD w))
  | 0xE => .ok (.swapf (fieldF w) (fieldD w))
  | _ => .ok (.incfsz (fieldF w) (fieldD w))

/-- Bits 13:12 = 01 (30_encoding.md R83, R94). -/
def decodeBitOriented (w : InstrWord) : Except DecodeReject Instr :=
  match (w.extractLsb' 10 2).toNat with
  | 0 => .ok (.bcf (fieldF w) (fieldB w))
  | 1 => .ok (.bsf (fieldF w) (fieldB w))
  | 2 => .ok (.btfsc (fieldF w) (fieldB w))
  | _ => .ok (.btfss (fieldF w) (fieldB w))

/-- Bits 13:12 = 11; bit 8 of ADDLW and SUBLW and bits 9:8 of MOVLW and RETLW are don't-care
(30_encoding.md R84, R92, R94). -/
def decodeLiteral (w : InstrWord) : Except DecodeReject Instr :=
  match (w.extractLsb' 10 2).toNat with
  | 0 => .ok (.movlw (fieldK8 w))
  | 1 => .ok (.retlw (fieldK8 w))
  | 2 =>
    match (w.extractLsb' 8 2).toNat with
    | 0 => .ok (.iorlw (fieldK8 w))
    | 1 => .ok (.andlw (fieldK8 w))
    | 2 => .ok (.xorlw (fieldK8 w))
    | _ => .error (.undefinedWord w)
  | _ => if w.getLsbD 9 then .ok (.addlw (fieldK8 w)) else .ok (.sublw (fieldK8 w))

/-- The instruction a word is, by bits 13:12 first (30_encoding.md R81, R94). -/
def decode (w : InstrWord) : Except DecodeReject Instr :=
  match (w.extractLsb' 12 2).toNat with
  | 0 => decodeByteOriented w
  | 1 => decodeBitOriented w
  | 2 => if w.getLsbD 11 then .ok (.goto (fieldK11 w)) else .ok (.call (fieldK11 w))
  | _ => decodeLiteral w

/-- The instruction the decoder reads from a table word numbered from bit 0. An instruction is one 14-bit word
(30_encoding.md R80), so a number of more than 14 bits is no instruction. -/
def decodeTableWord (_nbits w : Nat) : Option Instr :=
  if w < 2 ^ 14 then (decode (BitVec.ofNat 14 w)).toOption else none

/-- The bit of `d` (30_encoding.md R88). -/
def Dest.bit : Dest → BitVec 1
  | .w => 0#1
  | .f => 1#1

/-- The canonical word of an instruction: every don't-care bit is 0 (30_encoding.md R92, R93). An instruction is one
word, so `encode` gives one. -/
def encode : Instr → InstrWord
  | .addwf f d => 0b000111#6 ++ d.bit ++ f
  | .andwf f d => 0b000101#6 ++ d.bit ++ f
  | .clrf f => 0b0000011#7 ++ f
  | .clrw => 0b00000100000000#14
  | .comf f d => 0b001001#6 ++ d.bit ++ f
  | .decf f d => 0b000011#6 ++ d.bit ++ f
  | .decfsz f d => 0b001011#6 ++ d.bit ++ f
  | .incf f d => 0b001010#6 ++ d.bit ++ f
  | .incfsz f d => 0b001111#6 ++ d.bit ++ f
  | .iorwf f d => 0b000100#6 ++ d.bit ++ f
  | .movf f d => 0b001000#6 ++ d.bit ++ f
  | .movwf f => 0b0000001#7 ++ f
  | .nop => 0b00000000000000#14
  | .rlf f d => 0b001101#6 ++ d.bit ++ f
  | .rrf f d => 0b001100#6 ++ d.bit ++ f
  | .subwf f d => 0b000010#6 ++ d.bit ++ f
  | .swapf f d => 0b001110#6 ++ d.bit ++ f
  | .xorwf f d => 0b000110#6 ++ d.bit ++ f
  | .bcf f b => 0b0100#4 ++ b ++ f
  | .bsf f b => 0b0101#4 ++ b ++ f
  | .btfsc f b => 0b0110#4 ++ b ++ f
  | .btfss f b => 0b0111#4 ++ b ++ f
  | .addlw k => 0b111110#6 ++ k
  | .andlw k => 0b111001#6 ++ k
  | .call k => 0b100#3 ++ k
  | .clrwdt => 0b00000001100100#14
  | .goto k => 0b101#3 ++ k
  | .iorlw k => 0b111000#6 ++ k
  | .movlw k => 0b110000#6 ++ k
  | .retfie => 0b00000000001001#14
  | .retlw k => 0b110100#6 ++ k
  | .ret => 0b00000000001000#14
  | .sleep => 0b00000001100011#14
  | .sublw k => 0b111100#6 ++ k
  | .xorlw k => 0b111010#6 ++ k

end Sys2Proof
end

