-- ==== Sys2Proof/Config.lean ====
section
/-! DEFINITION. What an implementation fixes (the parameters of 00_scope.md R2, as plain data that State
carries) and the free values, which nothing fixes: opaque constants, so that no proof sees a value of theirs. -/

namespace Sys2Proof

/-- `NUM_BANKS`: two cases only (00_scope.md R2, 10_state.md R17). -/
inductive BankCount where
  | two
  | four
deriving DecidableEq, Repr

/-- `PC_BITS` (00_scope.md R2). DEDUCED (log 25): at least 11 because CALL and GOTO carry 11 address bits, at most
13 because a write of PCL takes every bit above bit 7 from the 5-bit PCLATH (20_memory.md R67). -/
inductive PcWidth where
  | bits11
  | bits12
  | bits13
deriving DecidableEq, Repr

/-- `PC_BITS` as a number. -/
def PcWidth.bits : PcWidth → Nat
  | .bits11 => 11
  | .bits12 => 12
  | .bits13 => 13

/-- The cell a data address names (20_memory.md R54). `io n` and `gpr n` carry the number of the register: two
addresses with one number name one register. -/
inductive FileCell where
  | status
  | optionReg
  | pcon
  | tmr0
  | io (n : DataAddr)
  | gpr (n : DataAddr)
  | indf
  | fsr
  | pcl
  | pclath
  | intcon
  | unimplemented
deriving DecidableEq, Repr

/-- `WdtModel` (60_exceptions.md R163). -/
inductive WdtModel where
  | disabled
  | anyTime
deriving DecidableEq, Repr

/-- The device: the parameters of 00_scope.md R2 and the Configuration word (10_state.md R43). No step changes it. -/
structure Device where
  /-- `NUM_BANKS`. -/
  banks : BankCount
  /-- `PC_BITS`. -/
  pcWidth : PcWidth
  /-- `STACK_DEPTH`. -/
  stackDepth : Nat
  /-- `STATUS_OFFSET`: STATUS stands there in every bank (10_state.md R27). -/
  statusOffset : FileField
  /-- Addresses at which this device differs from the default `FileMap` (20_memory.md R55). -/
  fileMapChanges : List (DataAddr × FileCell)
  hasPcon : Bool
  /-- Covers PCON's PER and MPEEN bits (10_state.md R36). -/
  hasPer : Bool
  hasBor : Bool
  configMpeen : Bool
  configBoden : Bool
  configWdte : Bool
deriving DecidableEq, Repr

/-- A Watchdog time-out may happen at any boundary exactly when the Watchdog is configured on (60_exceptions.md R163). -/
def Device.wdtModel (d : Device) : WdtModel := if d.configWdte then .anyTime else .disabled

/-- The defaults of 00_scope.md R2 (log 1). The three Configuration bits have no default there:
DESIGN CHOICE 0 (log 2). -/
def Device.default : Device :=
  { banks := .four, pcWidth := .bits13, stackDepth := 8, statusOffset := 0x03#7, fileMapChanges := [],
    hasPcon := true, hasPer := true, hasBor := true,
    configMpeen := false, configBoden := false, configWdte := false }

/-- What read number `n` of the pins or of TMR0 at an address returns when the platform does not say
(20_memory.md R62, decision D27). Free value, log 8. -/
opaque Config.ioRead : DataAddr → Nat → Byte

/-- W drawn at Power-on Reset number `n` (10_state.md R47). Free value, log 5. -/
opaque Config.drawW : Nat → Byte

/-- FSR drawn at Power-on Reset (10_state.md R47). Free value, log 5. -/
opaque Config.drawFsr : Nat → Byte

/-- TMR0 drawn at Power-on Reset (10_state.md R47). Free value, log 5. -/
opaque Config.drawTmr0 : Nat → Byte

/-- Z, DC, C drawn at Power-on Reset (10_state.md R47). Free value, log 5. -/
opaque Config.drawFlags : Nat → BitVec 3

/-- BOR drawn at Power-on Reset, and at a Brown-out Reset with the brown-out circuit off (10_state.md R41).
Free value, log 5. -/
opaque Config.drawBor : Nat → Bool

/-- RBIF drawn at a reset (60_exceptions.md R153, INTCON = 0000 000x). Free value, log 5 and log 14. -/
opaque Config.drawRbif : Nat → Bool

/-- General purpose cell `a` drawn at Power-on Reset number `n` (10_state.md R47). Free value, log 5. -/
opaque Config.drawRam : Nat → Nat → Byte

/-- I/O data latch `a` drawn at a reset (10_state.md R47). Free value, log 5 and log 14. -/
opaque Config.drawLatch : Nat → Nat → Byte

/-- The Watchdog count after a reset other than Power-on, which the spec does not state. Free value, log 14. -/
opaque Config.drawWdtCount : Nat → Nat

/-- The prescaler count after a reset other than Power-on, which the spec does not state. Free value, log 14. -/
opaque Config.drawPrescaler : Nat → Byte

end Sys2Proof
end

