-- ==== Sys2Proof/Machine/State.lean ====
section
/-! DEFINITION. The machine's state, as plain data: everything 10_state.md gives the machine, the device's parameters
and program image, and the schedule of inputs from outside (60_exceptions.md R149). Its reset value, its faults and its
refusals. -/

namespace Sys2Proof.Machine

/-- Bytes by number, in one canonical form: numbers strictly rising, no entry equal to what an unlisted number reads as
(`Memory.unlisted`). It holds the general purpose cells and the I/O latches. -/
abbrev Memory := List Host.Cell

/-- The resets the platform can request at a boundary (60_exceptions.md R161). A Watchdog time-out is an event of its
own, because it is a reset only while the device is awake (R164). -/
inductive ResetRequest where
  | powerOn
  | brownOut
  | parityError
  | external
deriving DecidableEq, Repr

/-- The kinds of reset of 60_exceptions.md R161. -/
inductive ResetKind where
  | powerOn
  | brownOut
  | watchdog
  | parityError
  | external
deriving DecidableEq, Repr

/-- The events that set an interrupt flag (60_exceptions.md R152, R153). -/
structure FlagEvents where
  /-- The levels the INT pin goes to, one after the other: a pulse shorter than a step is two of them (log 11). -/
  intPin : List Bool
  /-- Timer0 overflows: T0IF is set. -/
  timer0Overflow : Bool
  /-- PORTB changes: RBIF is set. -/
  portBChange : Bool
deriving DecidableEq, Repr

/-- No event. -/
def FlagEvents.quiet : FlagEvents := { intPin := [], timer0Overflow := false, portBChange := false }

/-- What the environment does in one step (60_exceptions.md R149, R152 to R154, 20_memory.md R62, R72). -/
structure StepInput where
  /-- A reset is requested. -/
  reset : Option ResetRequest
  /-- The Watchdog times out. -/
  wdtTimeout : Bool
  /-- The flag events at the boundary before the step. -/
  before : FlagEvents
  /-- The flag events inside the step, between the instruction's read and its write (20_memory.md R72). -/
  during : FlagEvents
  /-- The peripherals' request goes to this level. -/
  peripheral : Option Bool
  /-- `IntPending` in this step, where the platform says; none leaves it to the default device's formula
  (00_scope.md R2, 60_exceptions.md R154). -/
  pending : Option Bool
  /-- The value a read of a pin register or of TMR0 returns in this step; none leaves it free. -/
  ioRead : Option Byte
deriving DecidableEq, Repr

/-- The input of a step at which nothing happens. -/
def StepInput.quiet : StepInput :=
  { reset := none, wdtTimeout := false, before := FlagEvents.quiet, during := FlagEvents.quiet, peripheral := none,
    pending := none, ioRead := none }

/-- The whole state of the machine. INVENTORY.md lists each field with the rule that names it. -/
structure State where
  /-- The parameters of 00_scope.md R2; constant. -/
  dev : Device
  /-- Program memory; its length is `PROG_WORDS`; constant (20_memory.md R51, R52). -/
  program : List InstrWord
  /-- The working register (10_state.md R7). -/
  w : Byte
  /-- STATUS: IRP RP1 RP0 TO PD Z DC C (10_state.md R14). -/
  status : Byte
  /-- OPTION_REG (10_state.md R28). -/
  optionReg : Byte
  /-- PCON<2:0>: PER POR BOR (10_state.md R36). -/
  pcon : BitVec 3
  /-- FSR (10_state.md R45). -/
  fsr : Byte
  /-- PCLATH<4:0> (20_memory.md R68). -/
  pclath : BitVec 5
  /-- INTCON: GIE PEIE T0IE INTE RBIE T0IF INTF RBIF (60_exceptions.md R153). -/
  intcon : Byte
  /-- The value last written to TMR0 (20_memory.md R65). -/
  tmr0 : Byte
  /-- The general purpose cells, by cell number (20_memory.md R54). -/
  ram : Memory
  /-- The data latches of the I/O registers, by register number (20_memory.md R63). -/
  latches : Memory
  /-- Output events, newest first (20_memory.md R63). -/
  outputs : List (DataAddr × Byte)
  /-- The program counter (10_state.md R9). -/
  pc : ProgAddr
  /-- The return stack, newest first (10_state.md R11). -/
  stack : List ProgAddr
  /-- The Watchdog count (10_state.md R46). -/
  wdtCount : Nat
  /-- The prescaler count (10_state.md R46). -/
  prescaler : Byte
  /-- In standby mode after SLEEP (60_exceptions.md R168). -/
  asleep : Bool
  /-- One instruction runs before the next interrupt entry (60_exceptions.md R169). -/
  mustExecuteOne : Bool
  /-- Level of the INT pin (60_exceptions.md R152). -/
  intPin : Bool
  /-- A peripheral interrupt request is present (60_exceptions.md R154). -/
  peripheralReq : Bool
  /-- T0IF : INTF : RBIF raised inside this step, after the instruction's read (20_memory.md R72); they join INTCON when the
  step ends, unless the instruction has written INTCON over them. -/
  midFlags : BitVec 3
  /-- What the platform says `IntPending` is in this step, if it says (00_scope.md R2, 60_exceptions.md R154). -/
  platformPending : Option Bool
  /-- What this step's read of a pin register or of TMR0 returns, where the platform says (20_memory.md R62). -/
  ioIn : Option Byte
  /-- The inputs of the steps to come, one entry a step; after the last, nothing happens any more (log 9). -/
  inputs : List StepInput
  /-- The MODEL's own: how many free values have been drawn (log 8). -/
  draws : Nat
  /-- The MODEL's own: instruction cycles, a ghost count (70_reset_and_hazards.md R176, log 23). -/
  cycles : Nat
deriving DecidableEq, Repr

/-- Why a run stops with a fault. All five are outcomes of the model that the spec itself names, no hardware events
(60_exceptions.md R151): the hardware goes on in each case, so each is safe. -/
inductive Fault where
  /-- A push on a full stack: CALL, interrupt entry (10_state.md R12). Safe: the hardware overwrites the oldest entry. -/
  | stackOverflow
  /-- A pop of an empty stack: RETURN, RETLW, RETFIE (10_state.md R13). Safe: the hardware returns a stale entry. -/
  | stackUnderflow
  /-- An access with address bit 8 set on a two-bank device (10_state.md R17). Safe: the spec gives it no effect. -/
  | reservedBank
  /-- An access to an address with no register (20_memory.md R61). Safe: the hardware reads 0 and ignores writes. -/
  | unimplementedRegister
  /-- A fetch at or above `PROG_WORDS` (20_memory.md R52). Safe: the hardware's address wraps. -/
  | fetchOutsideProgram
deriving DecidableEq, Repr

/-- Why a run stops with a refusal. -/
inductive Refusal where
  /-- An instruction without a meaning in exec. Safe: nothing is claimed of it. No arm answers so. -/
  | notModelled (mnemonic : String)
  /-- The fetched word matches no row of Table 5-1 (30_encoding.md R95). Raised by the step, safe: the spec gives such a
  word no behaviour. -/
  | undefinedInstruction (word : InstrWord)
deriving DecidableEq, Repr

/-- The machine right after a Power-on Reset (10_state.md R47, 70_reset_and_hazards.md R171): STATUS = 0001 1xxx,
OPTION_REG = 1111 1111, PC, PCLATH, INTCON and the counts 0, the stack empty, awake. DESIGN CHOICE, unsafe (log 4): each
value the spec leaves unspecified there (W, FSR, TMR0, the cells, the latches, Z, DC, C, BOR, RBIF) is 0. No program is
placed (log 3) and no input is scheduled (log 9). -/
def State.reset : State :=
  { dev := Device.default, program := [], w := 0x00#8, status := 0b00011000#8, optionReg := 0xFF#8, pcon := 0b000#3,
    fsr := 0x00#8, pclath := 0#5, intcon := 0x00#8, tmr0 := 0x00#8, ram := [], latches := [], outputs := [],
    pc := 0#13, stack := [], wdtCount := 0, prescaler := 0#8, asleep := false, mustExecuteOne := false,
    intPin := false, peripheralReq := false, midFlags := 0#3, platformPending := none, ioIn := none, inputs := [],
    draws := 0, cycles := 0 }

end Sys2Proof.Machine
end

