-- ==== Sys2Proof/Machine/Flags.lean ====
section
/-! DEFINITION. The ALU (40_alu_common.md R101 to R108) with the status bits each operation computes, the bits of the
control registers, and the write of STATUS. -/

namespace Sys2Proof.Machine

/-- The status bits among C, DC, Z that an instruction writes, with their values; `none` is a bit it does not affect
(10_state.md R23). -/
structure FlagUpdate where
  c : Option Bool
  dc : Option Bool
  z : Option Bool
deriving DecidableEq, Repr

/-- `affects = {}` (10_state.md R26). -/
def FlagUpdate.nothing : FlagUpdate := ⟨none, none, none⟩

/-- Whether the instruction affects none of Z, DC, C (10_state.md R26). -/
def FlagUpdate.isNothing (u : FlagUpdate) : Bool := u.c.isNone && u.dc.isNone && u.z.isNone

/-- Z alone, from the 8-bit result (10_state.md R20). -/
def FlagUpdate.ofZero (r : Byte) : FlagUpdate := ⟨none, none, some (r == 0#8)⟩

/-- An 8-bit result with its status bits. -/
structure AluOut where
  result : Byte
  flags : FlagUpdate
deriving DecidableEq, Repr

/-- `Add8(a, b)` (40_alu_common.md R103). -/
def add8 (a b : Byte) : AluOut :=
  let sum9 := a.zeroExtend 9 + b.zeroExtend 9
  let low5 := (a.extractLsb' 0 4).zeroExtend 5 + (b.extractLsb' 0 4).zeroExtend 5
  let r : Byte := sum9.extractLsb' 0 8
  ⟨r, ⟨some (sum9.getLsbD 8), some (low5.getLsbD 4), some (r == 0#8)⟩⟩

/-- `Sub8(a, b)`, a - b as a + ~b + 1 (40_alu_common.md R104, 90_conflicts.md C4). -/
def sub8 (a b : Byte) : AluOut :=
  let sum9 := a.zeroExtend 9 + (~~~b).zeroExtend 9 + 1#9
  let low5 := (a.extractLsb' 0 4).zeroExtend 5 + ((~~~b).extractLsb' 0 4).zeroExtend 5 + 1#5
  let r : Byte := sum9.extractLsb' 0 8
  ⟨r, ⟨some (sum9.getLsbD 8), some (low5.getLsbD 4), some (r == 0#8)⟩⟩

/-- A result that writes Z alone (40_alu_common.md R105, R106). -/
def zeroOut (r : Byte) : AluOut := ⟨r, FlagUpdate.ofZero r⟩

/-- A result that writes no status bit (10_state.md R23). -/
def plainOut (r : Byte) : AluOut := ⟨r, FlagUpdate.nothing⟩

/-- `(a + 1) mod 256` (40_alu_common.md R106). -/
def inc8 (a : Byte) : Byte := a + 1#8

/-- `(a - 1) mod 256` (40_alu_common.md R106). -/
def dec8 (a : Byte) : Byte := a - 1#8

/-- `RotL(a, cin)`: C takes the old bit 7 (40_alu_common.md R107). -/
def rotateLeft (a : Byte) (cin : Bool) : AluOut :=
  ⟨a.extractLsb' 0 7 ++ BitVec.ofBool cin, ⟨some (a.getLsbD 7), none, none⟩⟩

/-- `RotR(a, cin)`: C takes the old bit 0 (40_alu_common.md R107). -/
def rotateRight (a : Byte) (cin : Bool) : AluOut :=
  ⟨BitVec.ofBool cin ++ a.extractLsb' 1 7, ⟨some (a.getLsbD 0), none, none⟩⟩

/-- `Swap(a)` (40_alu_common.md R108). -/
def swapNibbles (a : Byte) : Byte := a.extractLsb' 0 4 ++ a.extractLsb' 4 4

/-- The mask of bit `b` (30_encoding.md R89). -/
def bitMask (b : BitField) : Byte := 1#8 <<< b.toNat

/-- Bit `i` of `v` put to `x`. -/
def putBit (v : Byte) (i : Nat) (x : Bool) : Byte :=
  if x then v ||| (1#8 <<< i) else v &&& ~~~(1#8 <<< i)

/-- Bit `i` of `v` put to a value, or left as it is. -/
def putBitOpt (v : Byte) (i : Nat) : Option Bool → Byte
  | none => v
  | some x => putBit v i x

/-- STATUS<0> (10_state.md R22). -/
def State.carry (s : State) : Bool := s.status.getLsbD 0

/-- STATUS<1> (10_state.md R21). -/
def State.digitCarry (s : State) : Bool := s.status.getLsbD 1

/-- STATUS<2> (10_state.md R20). -/
def State.zero (s : State) : Bool := s.status.getLsbD 2

/-- STATUS<3>, PD (10_state.md R19). -/
def State.powerDown (s : State) : Bool := s.status.getLsbD 3

/-- STATUS<4>, TO (10_state.md R18). -/
def State.timeOut (s : State) : Bool := s.status.getLsbD 4

/-- RP1:RP0, STATUS<6:5> (10_state.md R16). -/
def State.rp (s : State) : BitVec 2 := s.status.extractLsb' 5 2

/-- IRP, STATUS<7> (10_state.md R15). -/
def State.irp (s : State) : BitVec 1 := s.status.extractLsb' 7 1

/-- GIE, INTCON<7> (60_exceptions.md R153). -/
def State.gie (s : State) : Bool := s.intcon.getLsbD 7

/-- `WriteStatus(v, affects)`: bits 7:5 take the result, TO and PD keep their values, Z, DC, C take the result only when
the instruction affects none of them (10_state.md R26). -/
def writeStatus (old v : Byte) (affectsNothing : Bool) : Byte :=
  (v &&& 0xE0#8) ||| (old &&& 0x18#8) ||| ((if affectsNothing then v else old) &&& 0x07#8)

/-- The device logic's write of the affected status bits (40_alu_common.md R111). -/
def updateFlags (st : Byte) (u : FlagUpdate) : Byte :=
  putBitOpt (putBitOpt (putBitOpt st 0 u.c) 1 u.dc) 2 u.z

/-- The device logic's write of TO and PD (10_state.md R18, R19). -/
def putToPd (st : Byte) (t p : Bool) : Byte := putBit (putBit st 4 t) 3 p

/-- What a read of PCON returns, MPEEN : 0000 : PER : POR : BOR; a bit the device does not have reads 0
(10_state.md R36 to R38, R42). -/
def pconValue (d : Device) (p : BitVec 3) : Byte :=
  BitVec.ofBool (d.hasPer && d.configMpeen) ++ 0#4 ++ BitVec.ofBool (d.hasPer && p.getLsbD 2)
    ++ BitVec.ofBool (p.getLsbD 1) ++ BitVec.ofBool (d.hasBor && p.getLsbD 0)

/-- What a write of PCON stores: bits 2:0 in PER, POR, BOR, those that exist (10_state.md R42). -/
def pconStore (d : Device) (p : BitVec 3) (v : Byte) : BitVec 3 :=
  BitVec.ofBool (if d.hasPer then v.getLsbD 2 else p.getLsbD 2) ++ BitVec.ofBool (v.getLsbD 1)
    ++ BitVec.ofBool (if d.hasBor then v.getLsbD 0 else p.getLsbD 0)

/-- What TMR0 counts (10_state.md R31). -/
inductive Timer0Source where
  | t0ckiPin
  | clkout
deriving DecidableEq, Repr

/-- An edge of a pin (10_state.md R30, R32). -/
inductive PinEdge where
  | rising
  | falling
deriving DecidableEq, Repr

/-- RBPU, OPTION_REG<7>, active low (10_state.md R29). -/
def pullUpsEnabled (o : Byte) : Bool := !o.getLsbD 7

/-- INTEDG, OPTION_REG<6> (10_state.md R30). -/
def intEdge (o : Byte) : PinEdge := if o.getLsbD 6 then .rising else .falling

/-- T0CS, OPTION_REG<5> (10_state.md R31). -/
def timer0Source (o : Byte) : Timer0Source := if o.getLsbD 5 then .t0ckiPin else .clkout

/-- T0SE, OPTION_REG<4> (10_state.md R32). -/
def timer0Edge (o : Byte) : PinEdge := if o.getLsbD 4 then .falling else .rising

/-- PSA, OPTION_REG<3>: the prescaler serves the Watchdog (10_state.md R33). -/
def prescalerToWdt (o : Byte) : Bool := o.getLsbD 3

/-- PS2:PS0, OPTION_REG<2:0> (10_state.md R34). -/
def prescalerSelect (o : Byte) : Nat := (o.extractLsb' 0 3).toNat

/-- The divisor in front of TMR0: 2^(PS+1), or 1 with the prescaler at the Watchdog (10_state.md R34, R35). -/
def timer0Divisor (o : Byte) : Nat := if prescalerToWdt o then 1 else 2 ^ (prescalerSelect o + 1)

/-- The divisor of the Watchdog: 2^PS, or 1 with the prescaler at Timer0 (10_state.md R34). -/
def wdtDivisor (o : Byte) : Nat := if prescalerToWdt o then 2 ^ prescalerSelect o else 1

end Sys2Proof.Machine
end

