-- ==== Sys2Proof/Machine/Operands.lean ====
section
/-! DEFINITION. What an instruction's operands name: the file map (20_memory.md R54, R55), direct and indirect
addresses (R56, R57), and program addresses of the device's width. -/

namespace Sys2Proof.Machine

/-- The default cell at an offset of bank 0 (20_memory.md R55, column 1). -/
def bank0Cell (a : DataAddr) (offset : Nat) : FileCell :=
  if offset = 0x01 then .tmr0 else if offset < 0x20 then .io a else .gpr a

/-- The default cell at an offset of bank 1 (20_memory.md R55, column 2). -/
def bank1Cell (a : DataAddr) (offset : Nat) : FileCell :=
  if offset = 0x01 then .optionReg else if offset = 0x0E then .pcon else if offset < 0x20 then .io a else .gpr a

/-- The default cell at an offset of bank 2 (20_memory.md R55, column 3): 106h is PORTB, the register of 06h. DESIGN
CHOICE (log 6): every other location the rule leaves to the device below offset 20h is an I/O register of its own. -/
def bank2Cell (a : DataAddr) (offset : Nat) : FileCell :=
  if offset = 0x01 then .tmr0 else if offset = 0x06 then .io 0x006#9 else if offset < 0x20 then .io a else .gpr a

/-- The default cell at an offset of bank 3 (20_memory.md R55, column 4), with the same choice (log 6). -/
def bank3Cell (a : DataAddr) (offset : Nat) : FileCell :=
  if offset = 0x01 then .optionReg else if offset < 0x20 then .io a else .gpr a

/-- The default `FileMap` apart from STATUS (20_memory.md R55): INDF, PCL, FSR, PCLATH and INTCON stand in every bank.
DESIGN CHOICE (log 30): offset 03h holds no register when STATUS stands at another offset. -/
def defaultCell (a : DataAddr) : FileCell :=
  let offset := (a.extractLsb' 0 7).toNat
  if offset = 0x00 then .indf
  else if offset = 0x02 then .pcl
  else if offset = 0x03 then .unimplemented
  else if offset = 0x04 then .fsr
  else if offset = 0x0A then .pclath
  else if offset = 0x0B then .intcon
  else match (a.extractLsb' 7 2).toNat with
    | 0 => bank0Cell a offset
    | 1 => bank1Cell a offset
    | 2 => bank2Cell a offset
    | _ => bank3Cell a offset

/-- The device's replacement at an address, if it has one. -/
def changedCell (a : DataAddr) : List (DataAddr × FileCell) → Option FileCell
  | [] => none
  | (b, c) :: rest => if a = b then some c else changedCell a rest

/-- A PCON the device does not have is no register (log 16). -/
def withPcon (hasPcon : Bool) : FileCell → FileCell
  | .pcon => if hasPcon then .pcon else .unimplemented
  | c => c

/-- A bank the device does not have: address bit 8 on a two-bank device (10_state.md R17). -/
def reservedBank (d : Device) (a : DataAddr) : Bool := decide (d.banks = .two) && a.getLsbD 8

/-- `FileMap(a)` (20_memory.md R54): STATUS at its offset in every bank (10_state.md R27), the device's own replacements,
else the default. The columns of banks 2 and 3 do not exist on a two-bank device (R55). -/
def fileCell (d : Device) (a : DataAddr) : FileCell :=
  if reservedBank d a then .unimplemented
  else if a.extractLsb' 0 7 = d.statusOffset then .status
  else withPcon d.hasPcon ((changedCell a d.fileMapChanges).getD (defaultCell a))

/-- `RP1 : RP0 : f` (20_memory.md R56). -/
def directAddr (s : State) (f : FileField) : DataAddr := s.rp ++ f

/-- `IRP : FSR` (20_memory.md R57). -/
def indirectAddr (s : State) : DataAddr := s.irp ++ s.fsr

/-- `EA(f)`: indirect when the direct address names INDF (20_memory.md R56, R57). The bank bits are those before the
instruction (R58), because every meaning forms its address once, from the state it is given. -/
def operandAddr (s : State) (f : FileField) : DataAddr :=
  if fileCell s.dev (directAddr s f) = .indf then indirectAddr s else directAddr s f

/-- A program address cut to `PC_BITS` (10_state.md R9). -/
def pcTrunc (d : Device) (a : ProgAddr) : ProgAddr :=
  match d.pcWidth with
  | .bits11 => a &&& 0x07FF#13
  | .bits12 => a &&& 0x0FFF#13
  | .bits13 => a

/-- `(PC + 1) mod 2^PC_BITS` (10_state.md R10). -/
def nextPc (d : Device) (a : ProgAddr) : ProgAddr := pcTrunc d (a + 1#13)

/-- The target of CALL and GOTO: PCLATH<4:3> : k, cut to `PC_BITS` (43_literal_control.md R138, R140). -/
def pageTarget (s : State) (k : BitVec 11) : ProgAddr := pcTrunc s.dev (s.pclath.extractLsb' 3 2 ++ k)

/-- The PC after a write of `v` to PCL: PCLATH<4:0> : v, cut to `PC_BITS` (20_memory.md R67). -/
def pclTarget (s : State) (v : Byte) : ProgAddr := pcTrunc s.dev (s.pclath ++ v)

end Sys2Proof.Machine
end

