-- ==== Sys2Proof/Machine/Ops.lean ====
section
/-! DEFINITION. The named operations over memory and registers: cells, reads and writes of file registers, the
destination write, the skip, the stack, taking an interrupt and returning from one, the program fetch, and the shapes
that several instructions share. -/

namespace Sys2Proof.Machine

/-! ### Cells -/

/-- What an unlisted cell reads as. DESIGN CHOICE, unsafe (log 18): the spec leaves a cell nothing has written
unspecified (10_state.md R47, R49). -/
def Memory.unlisted : Byte := 0x00#8

/-- The byte of cell `a`. -/
def Memory.read : Memory → Nat → Byte
  | [], _ => Memory.unlisted
  | (b, x) :: rest, a => if a = b then x else Memory.read rest a

/-- An entry in front of a list whose entries lie above it, unless it reads as unlisted. -/
def Memory.entry (a : Nat) (v : Byte) (rest : Memory) : Memory :=
  if v = Memory.unlisted then rest else (a, v) :: rest

/-- Cell `a` set to `v`, in the canonical form. -/
def Memory.write : Memory → Nat → Byte → Memory
  | [], a, v => Memory.entry a v []
  | (b, x) :: rest, a, v =>
    if a < b then Memory.entry a v ((b, x) :: rest)
    else if a = b then Memory.entry a v rest
    else (b, x) :: Memory.write rest a v

/-- Numbers strictly rising from `lo`, below 512, and no entry equal to an unlisted one. -/
def Memory.wfFrom (lo : Nat) : Memory → Bool
  | [] => true
  | (a, v) :: rest => decide (lo ≤ a) && decide (a < 512) && (v != Memory.unlisted) && Memory.wfFrom (a + 1) rest

/-- The canonical form. -/
def Memory.wf (m : Memory) : Bool := Memory.wfFrom 0 m

/-- The cells listed by number from `n`, `k` of them, with the bytes `f` gives. -/
def Memory.tabulate (f : Nat → Byte) : Nat → Nat → Memory
  | _, 0 => []
  | n, k + 1 => Memory.entry n (f n) (Memory.tabulate f (n + 1) k)

/-- All 512 cells drawn (10_state.md R47). -/
def Memory.drawn (f : Nat → Byte) : Memory := Memory.tabulate f 0 512

/-! ### Updates of single registers -/

/-- W takes a value (10_state.md R7). -/
def State.setW (s : State) (v : Byte) : State := { s with w := v }

/-- STATUS takes a value from the device logic (00_scope.md R6). -/
def State.setStatus (s : State) (v : Byte) : State := { s with status := v }

/-- The affected status bits are written by the device logic (40_alu_common.md R111). -/
def State.setFlags (s : State) (u : FlagUpdate) : State := s.setStatus (updateFlags s.status u)

/-- The PC takes a value that is not the next address; the instruction then takes a second cycle
(70_reset_and_hazards.md R176, 90_conflicts.md C6). -/
def State.loadPc (s : State) (a : ProgAddr) : State := { s with pc := a, cycles := s.cycles + 1 }

/-- `Skip()` when the condition holds (40_alu_common.md R112); a skip taken costs a second cycle (R176). -/
def State.skipIf (s : State) (b : Bool) : State :=
  { s with pc := if b then nextPc s.dev s.pc else s.pc, cycles := if b then s.cycles + 1 else s.cycles }

/-- An instruction takes at most one cycle more than the first, even when it both loads PCL and skips
(70_reset_and_hazards.md R176, note 3). -/
def State.atMostOneMoreCycle (s : State) (before : Nat) : State := { s with cycles := min s.cycles (before + 1) }

/-- `must_execute_one <- false` (60_exceptions.md R149). -/
def State.clearMustExecute (s : State) : State := { s with mustExecuteOne := false }

/-- The Watchdog count is cleared, and the prescaler count when it is assigned to the Watchdog
(43_literal_control.md R139, R146). -/
def State.clearWdt (s : State) : State :=
  { s with wdtCount := 0, prescaler := if prescalerToWdt s.optionReg then 0#8 else s.prescaler }

/-! ### File registers -/

/-- The model's fault at an address, the same for a read and a write (20_memory.md R59 to R61). -/
def accessFault (s : State) (a : DataAddr) : Option Fault :=
  if reservedBank s.dev a then some .reservedBank
  else if fileCell s.dev a = .unimplemented then some .unimplementedRegister
  else none

/-- The oracle's value for this step's read of a pin register or of TMR0: what the platform says, else a free value
(20_memory.md R62, log 8). -/
def oracleRead (s : State) (a : DataAddr) : Byte := s.ioIn.getD (Config.ioRead a s.draws)

/-- The value a read of address `a` returns (20_memory.md R59). -/
def peek (s : State) (a : DataAddr) : Byte :=
  match fileCell s.dev a with
  | .status => s.status
  | .optionReg => s.optionReg
  | .pcon => pconValue s.dev s.pcon
  | .tmr0 => oracleRead s a
  | .io _ => oracleRead s a
  | .gpr n => s.ram.read n.toNat
  | .indf => 0x00#8
  | .fsr => s.fsr
  | .pcl => s.pc.extractLsb' 0 8
  | .pclath => s.pclath.zeroExtend 8
  | .intcon => s.intcon
  | .unimplemented => 0x00#8

/-- Whether a read of the cell asks the oracle (20_memory.md R62). -/
def asksOracle : FileCell → Bool
  | .tmr0 => true
  | .io _ => true
  | _ => false

/-- The state after a read: only a read that asks the oracle leaves a trace, the count of draws. -/
def afterRead (s : State) (a : DataAddr) : State :=
  { s with draws := if asksOracle (fileCell s.dev a) then s.draws + 1 else s.draws }

/-- `MemRead(a, 1)` (20_memory.md R59). -/
def readFile (s : State) (a : DataAddr) : Except Fault (Byte × State) :=
  match accessFault s a with
  | some e => .error e
  | none => .ok (peek s a, afterRead s a)

/-- The write of TMR0: the prescaler count is cleared when it is assigned to Timer0, whichever instruction writes
(20_memory.md R65, 90_conflicts.md C9). -/
def writeTmr0 (s : State) (v : Byte) : State :=
  { s with tmr0 := v, prescaler := if prescalerToWdt s.optionReg then s.prescaler else 0#8 }

/-- The write of an I/O register: an output event, and the data latch keeps the value (20_memory.md R63). -/
def writeIo (s : State) (a n : DataAddr) (v : Byte) : State :=
  { s with outputs := (a, v) :: s.outputs, latches := s.latches.write n.toNat v }

/-- The write of INTCON: a flag that an event raised after this instruction's read is written over, and lost
(20_memory.md R64, R72). -/
def writeIntcon (s : State) (v : Byte) : State := { s with intcon := v, midFlags := 0#3 }

/-- What a write of `v` to address `a` stores, by the cell (20_memory.md R60). `affectsNothing`: the instruction affects
none of Z, DC, C, which a write of STATUS depends on (10_state.md R26). -/
def poke (s : State) (a : DataAddr) (v : Byte) (affectsNothing : Bool) : State :=
  match fileCell s.dev a with
  | .status => s.setStatus (writeStatus s.status v affectsNothing)
  | .optionReg => { s with optionReg := v }
  | .pcon => { s with pcon := pconStore s.dev s.pcon v }
  | .tmr0 => writeTmr0 s v
  | .io n => writeIo s a n v
  | .gpr n => { s with ram := s.ram.write n.toNat v }
  | .indf => s
  | .fsr => { s with fsr := v }
  | .pcl => s.loadPc (pclTarget s v)
  | .pclath => { s with pclath := v.extractLsb' 0 5 }
  | .intcon => writeIntcon s v
  | .unimplemented => s

/-- `MemWrite(a, 1, v)` (20_memory.md R60). -/
def writeFile (s : State) (a : DataAddr) (v : Byte) (affectsNothing : Bool) : Except Fault State :=
  match accessFault s a with
  | some e => .error e
  | none => .ok (poke s a v affectsNothing)

/-- `WriteDest(d, a, r, affects)` (40_alu_common.md R110). -/
def writeDest (s : State) (d : Dest) (a : DataAddr) (out : AluOut) : Except Fault State :=
  match d with
  | .w => .ok (s.setW out.result)
  | .f => writeFile s a out.result out.flags.isNothing

/-! ### Shapes of instructions -/

/-- The outcome of an operation that can only fault. -/
def finish : Except Fault State → Host.Outcome State Fault Refusal
  | .ok s => .next s
  | .error e => .fault e

/-- A byte-oriented operation with destination: address, read, compute, destination write, status write, in that order
(40_alu_common.md R99, R110, R111). It answers the result too, for the skips. -/
def fileToDest (s : State) (f : FileField) (d : Dest) (op : Byte → AluOut) : Except Fault (AluOut × State) :=
  match readFile s (operandAddr s f) with
  | .error e => .error e
  | .ok (x, s1) =>
    match writeDest s1 d (operandAddr s f) (op x) with
    | .error e => .error e
    | .ok s2 => .ok (op x, s2.setFlags (op x).flags)

/-- A byte-oriented operation that does not skip. -/
def byteOp (s : State) (f : FileField) (d : Dest) (op : Byte → AluOut) : Host.Outcome State Fault Refusal :=
  finish ((fileToDest s f d op).map Prod.snd)

/-- A byte-oriented operation that skips when its result is 0 (41_byte_oriented.md R120, R122). After a load of PCL the
skip moves on from the loaded PC: DEDUCED (log 24). -/
def byteOpSkip (s : State) (f : FileField) (d : Dest) (op : Byte → AluOut) : Host.Outcome State Fault Refusal :=
  finish ((fileToDest s f d op).map (fun p => (p.2.skipIf (p.1.result == 0#8)).atMostOneMoreCycle s.cycles))

/-- A write of a file register without a read, then the status write (CLRF, MOVWF). -/
def storeOp (s : State) (f : FileField) (out : AluOut) : Host.Outcome State Fault Refusal :=
  finish ((writeFile s (operandAddr s f) out.result out.flags.isNothing).map (fun t => t.setFlags out.flags))

/-- A bit test: a read, then a skip on the value read (42_bit_oriented.md R134, R135). -/
def bitTest (s : State) (f : FileField) (cond : Byte → Bool) : Host.Outcome State Fault Refusal :=
  finish ((readFile s (operandAddr s f)).map (fun p => p.2.skipIf (cond p.1)))

/-- A literal operation: the result goes to W, then the status write (43_literal_control.md). -/
def literalOp (s : State) (out : AluOut) : Host.Outcome State Fault Refusal :=
  .next ((s.setW out.result).setFlags out.flags)

/-! ### The stack, interrupts, the fetch -/

/-- `Push(v)` (10_state.md R12). -/
def push (s : State) (v : ProgAddr) : Except Fault State :=
  if s.dev.stackDepth ≤ s.stack.length then .error .stackOverflow
  else .ok { s with stack := v :: s.stack }

/-- `Pop()` (10_state.md R13). -/
def pop (s : State) : Except Fault (ProgAddr × State) :=
  match s.stack with
  | [] => .error .stackUnderflow
  | a :: rest => .ok (a, { s with stack := rest })

/-- `PC <- Pop()` (43_literal_control.md R143 to R145). -/
def returnToCaller (s : State) : Except Fault State :=
  (pop s).map (fun p => p.2.loadPc p.1)

/-- TAKING AN INTERRUPT, `InterruptEntry()`: GIE is cleared, the PC saved on the stack, the PC loaded with 0004h whatever
PCLATH holds, and nothing else is saved (60_exceptions.md R155). Its latency is not counted (R158). -/
def interruptEntry (s : State) : Except Fault State :=
  (push s s.pc).map (fun t => { t with intcon := putBit t.intcon 7 false, pc := 0x0004#13 })

/-- RETURNING FROM AN INTERRUPT: the PC comes from the stack and GIE is set; nothing else is restored
(43_literal_control.md R143, 60_exceptions.md R156). -/
def interruptReturn (s : State) : Except Fault State :=
  (returnToCaller s).map (fun t => { t with intcon := putBit t.intcon 7 true })

/-- `IntPending` of the default device: (INTF & INTE) | (T0IF & T0IE) | (RBIF & RBIE), or a peripheral request gated by
INTCON<6> (60_exceptions.md R154). -/
def defaultIntPending (s : State) : Bool :=
  (s.intcon.getLsbD 1 && s.intcon.getLsbD 4) || (s.intcon.getLsbD 2 && s.intcon.getLsbD 5)
    || (s.intcon.getLsbD 0 && s.intcon.getLsbD 3) || (s.peripheralReq && s.intcon.getLsbD 6)

/-- `IntPending`: what the platform says, else the default device's formula. It does not include GIE (00_scope.md R2,
60_exceptions.md R154, log 12). -/
def intPending (s : State) : Bool := s.platformPending.getD (defaultIntPending s)

/-- `ProgRead(a)` (20_memory.md R52): the program image is a list of words indexed by address (R70). -/
def progRead (s : State) (a : ProgAddr) : Except Fault InstrWord :=
  match s.program[a.toNat]? with
  | some word => .ok word
  | none => .error .fetchOutsideProgram

/-- The PC advanced past the instruction, and its first cycle (10_state.md R10, 70_reset_and_hazards.md R176). -/
def advancePc (s : State) : State := { s with pc := nextPc s.dev s.pc, cycles := s.cycles + 1 }

/-- A program image with word `w` at address `a`; addresses below `a` that had no word get 0000h. -/
def placeWord : List InstrWord → Nat → InstrWord → List InstrWord
  | [], 0, w => [w]
  | [], a + 1, w => 0x0000#14 :: placeWord [] a w
  | _ :: rest, 0, w => w :: rest
  | x :: rest, a + 1, w => x :: placeWord rest a w

end Sys2Proof.Machine
end

