-- ==== Sys2Proof/Machine/BitOriented.lean ====
section
/-! DEFINITION. The four bit-oriented file register operations (42_bit_oriented.md R132 to R135). -/

namespace Sys2Proof.Machine

/-- BCF f, b: the whole register is read and written back (42_bit_oriented.md R132). -/
def execBcf (f : FileField) (b : BitField) (s : State) : Host.Outcome State Fault Refusal :=
  byteOp s f .f (fun x => plainOut (x &&& ~~~(bitMask b)))

/-- BSF f, b: the whole register is read and written back (42_bit_oriented.md R133). -/
def execBsf (f : FileField) (b : BitField) (s : State) : Host.Outcome State Fault Refusal :=
  byteOp s f .f (fun x => plainOut (x ||| bitMask b))

/-- BTFSC f, b (42_bit_oriented.md R134). -/
def execBtfsc (f : FileField) (b : BitField) (s : State) : Host.Outcome State Fault Refusal :=
  bitTest s f (fun x => !x.getLsbD b.toNat)

/-- BTFSS f, b (42_bit_oriented.md R135). -/
def execBtfss (f : FileField) (b : BitField) (s : State) : Host.Outcome State Fault Refusal :=
  bitTest s f (fun x => x.getLsbD b.toNat)

end Sys2Proof.Machine
end

