-- ==== Sys2Proof/Machine/ByteOriented.lean ====
section
/-! DEFINITION. The 18 byte-oriented file register operations (41_byte_oriented.md R114 to R131), in the table's order. -/

namespace Sys2Proof.Machine

/-- ADDWF f, d (41_byte_oriented.md R114). -/
def execAddwf (f : FileField) (d : Dest) (s : State) : Host.Outcome State Fault Refusal :=
  byteOp s f d (fun x => add8 s.w x)

/-- ANDWF f, d (41_byte_oriented.md R115). -/
def execAndwf (f : FileField) (d : Dest) (s : State) : Host.Outcome State Fault Refusal :=
  byteOp s f d (fun x => zeroOut (s.w &&& x))

/-- CLRF f: no read of f (41_byte_oriented.md R116). -/
def execClrf (f : FileField) (s : State) : Host.Outcome State Fault Refusal :=
  storeOp s f (zeroOut 0x00#8)

/-- CLRW (41_byte_oriented.md R117). -/
def execClrw (s : State) : Host.Outcome State Fault Refusal :=
  literalOp s (zeroOut 0x00#8)

/-- COMF f, d (41_byte_oriented.md R118). -/
def execComf (f : FileField) (d : Dest) (s : State) : Host.Outcome State Fault Refusal :=
  byteOp s f d (fun x => zeroOut (~~~x))

/-- DECF f, d (41_byte_oriented.md R119). -/
def execDecf (f : FileField) (d : Dest) (s : State) : Host.Outcome State Fault Refusal :=
  byteOp s f d (fun x => zeroOut (dec8 x))

/-- DECFSZ f, d (41_byte_oriented.md R120). -/
def execDecfsz (f : FileField) (d : Dest) (s : State) : Host.Outcome State Fault Refusal :=
  byteOpSkip s f d (fun x => plainOut (dec8 x))

/-- INCF f, d (41_byte_oriented.md R121). -/
def execIncf (f : FileField) (d : Dest) (s : State) : Host.Outcome State Fault Refusal :=
  byteOp s f d (fun x => zeroOut (inc8 x))

/-- INCFSZ f, d (41_byte_oriented.md R122). -/
def execIncfsz (f : FileField) (d : Dest) (s : State) : Host.Outcome State Fault Refusal :=
  byteOpSkip s f d (fun x => plainOut (inc8 x))

/-- IORWF f, d (41_byte_oriented.md R123). -/
def execIorwf (f : FileField) (d : Dest) (s : State) : Host.Outcome State Fault Refusal :=
  byteOp s f d (fun x => zeroOut (s.w ||| x))

/-- MOVF f, d (41_byte_oriented.md R124). -/
def execMovf (f : FileField) (d : Dest) (s : State) : Host.Outcome State Fault Refusal :=
  byteOp s f d (fun x => zeroOut x)

/-- MOVWF f: no read of f (41_byte_oriented.md R125). -/
def execMovwf (f : FileField) (s : State) : Host.Outcome State Fault Refusal :=
  storeOp s f (plainOut s.w)

/-- NOP (41_byte_oriented.md R126). -/
def execNop (s : State) : Host.Outcome State Fault Refusal := .next s

/-- RLF f, d (41_byte_oriented.md R127). -/
def execRlf (f : FileField) (d : Dest) (s : State) : Host.Outcome State Fault Refusal :=
  byteOp s f d (fun x => rotateLeft x s.carry)

/-- RRF f, d (41_byte_oriented.md R128). -/
def execRrf (f : FileField) (d : Dest) (s : State) : Host.Outcome State Fault Refusal :=
  byteOp s f d (fun x => rotateRight x s.carry)

/-- SUBWF f, d: f - W (41_byte_oriented.md R129). -/
def execSubwf (f : FileField) (d : Dest) (s : State) : Host.Outcome State Fault Refusal :=
  byteOp s f d (fun x => sub8 x s.w)

/-- SWAPF f, d (41_byte_oriented.md R130). -/
def execSwapf (f : FileField) (d : Dest) (s : State) : Host.Outcome State Fault Refusal :=
  byteOp s f d (fun x => plainOut (swapNibbles x))

/-- XORWF f, d (41_byte_oriented.md R131). -/
def execXorwf (f : FileField) (d : Dest) (s : State) : Host.Outcome State Fault Refusal :=
  byteOp s f d (fun x => zeroOut (s.w ^^^ x))

end Sys2Proof.Machine
end

