-- ==== Sys2Proof/Machine/LiteralControl.lean ====
section
/-! DEFINITION. The 13 literal and control operations (43_literal_control.md R136 to R148), in the table's order. -/

namespace Sys2Proof.Machine

/-- ADDLW k (43_literal_control.md R136). -/
def execAddlw (k : Byte) (s : State) : Host.Outcome State Fault Refusal :=
  literalOp s (add8 s.w k)

/-- ANDLW k (43_literal_control.md R137). -/
def execAndlw (k : Byte) (s : State) : Host.Outcome State Fault Refusal :=
  literalOp s (zeroOut (s.w &&& k))

/-- CALL k: the return address is the PC, already past the CALL (43_literal_control.md R138). -/
def execCall (k : BitVec 11) (s : State) : Host.Outcome State Fault Refusal :=
  finish ((push s s.pc).map (fun t => t.loadPc (pageTarget s k)))

/-- CLRWDT: TO and PD both become 1 (43_literal_control.md R139). -/
def execClrwdt (s : State) : Host.Outcome State Fault Refusal :=
  .next (s.clearWdt.setStatus (putToPd s.status true true))

/-- GOTO k (43_literal_control.md R140). -/
def execGoto (k : BitVec 11) (s : State) : Host.Outcome State Fault Refusal :=
  .next (s.loadPc (pageTarget s k))

/-- IORLW k (43_literal_control.md R141). -/
def execIorlw (k : Byte) (s : State) : Host.Outcome State Fault Refusal :=
  literalOp s (zeroOut (s.w ||| k))

/-- MOVLW k: no status bit (43_literal_control.md R142). -/
def execMovlw (k : Byte) (s : State) : Host.Outcome State Fault Refusal :=
  literalOp s (plainOut k)

/-- RETFIE (43_literal_control.md R143). -/
def execRetfie (s : State) : Host.Outcome State Fault Refusal :=
  finish (interruptReturn s)

/-- RETLW k (43_literal_control.md R144). -/
def execRetlw (k : Byte) (s : State) : Host.Outcome State Fault Refusal :=
  finish (returnToCaller (s.setW k))

/-- RETURN (43_literal_control.md R145). -/
def execReturn (s : State) : Host.Outcome State Fault Refusal :=
  finish (returnToCaller s)

/-- SLEEP: TO becomes 1, PD 0, and the device is asleep (43_literal_control.md R146). -/
def execSleep (s : State) : Host.Outcome State Fault Refusal :=
  .next { s.clearWdt.setStatus (putToPd s.status true false) with asleep := true }

/-- SUBLW k: k - W (43_literal_control.md R147). -/
def execSublw (k : Byte) (s : State) : Host.Outcome State Fault Refusal :=
  literalOp s (sub8 k s.w)

/-- XORLW k (43_literal_control.md R148). -/
def execXorlw (k : Byte) (s : State) : Host.Outcome State Fault Refusal :=
  literalOp s (zeroOut (s.w ^^^ k))

end Sys2Proof.Machine
end

