-- ==== Sys2Proof/Machine/Reset.lean ====
section
/-! DEFINITION. The resets as events inside a run (10_state.md R47, R48, 60_exceptions.md R161): what each kind records
and what it leaves. Values the spec leaves unspecified are free values here (log 5, log 14). -/

namespace Sys2Proof.Machine

/-- The kind of a requested reset. -/
def ResetRequest.kind : ResetRequest → ResetKind
  | .powerOn => .powerOn
  | .brownOut => .brownOut
  | .parityError => .parityError
  | .external => .external

/-- TO and PD after a reset, from those before it and whether the device slept (60_exceptions.md R161, second table). -/
def toPdAfterReset (k : ResetKind) (asleep t p : Bool) : Bool × Bool :=
  match k with
  | .powerOn => (true, true)
  | .brownOut => (true, true)
  | .watchdog => (false, true)
  | .parityError => (t, p)
  | .external => if asleep then (true, false) else (t, p)

/-- PCON after a reset that is no Power-on Reset: only the bit that records it changes. BOR is a free value with the
brown-out circuit off; PER records an error only with the parity circuit on (10_state.md R39, R41, R48,
60_exceptions.md R161, log 15). -/
def pconAfterReset (k : ResetKind) (d : Device) (p : BitVec 3) (drawnBor : Bool) : BitVec 3 :=
  match k with
  | .brownOut =>
    p.extractLsb' 1 2 ++ BitVec.ofBool (if d.hasBor then (if d.configBoden then false else drawnBor) else p.getLsbD 0)
  | .parityError =>
    BitVec.ofBool (if d.hasPer && d.configMpeen then false else p.getLsbD 2) ++ p.extractLsb' 0 2
  | .powerOn => p
  | .watchdog => p
  | .external => p

/-- INTCON after a reset: 0000 000x, RBIF unknown (60_exceptions.md R153, log 14). -/
def intconAfterReset (rbif : Bool) : Byte := 0#7 ++ BitVec.ofBool rbif

/-- A Power-on Reset (10_state.md R47, 70_reset_and_hazards.md R171). What the rule calls unspecified is drawn once. DESIGN
CHOICE (log 32): the INT pin, a peripheral request and the platform's word on `IntPending` are the environment's, and stay
as the step's input has left them; a flag raised inside the step is discarded with the rest of INTCON. -/
def powerOnReset (s : State) : State :=
  { s with
    w := Config.drawW s.draws
    status := 0b00011#5 ++ Config.drawFlags s.draws
    optionReg := 0xFF#8
    pcon := 0b00#2 ++ BitVec.ofBool (Config.drawBor s.draws)
    fsr := Config.drawFsr s.draws
    pclath := 0#5
    intcon := intconAfterReset (Config.drawRbif s.draws)
    tmr0 := Config.drawTmr0 s.draws
    ram := Memory.drawn (Config.drawRam s.draws)
    latches := Memory.drawn (Config.drawLatch s.draws)
    pc := 0#13
    stack := []
    wdtCount := 0
    prescaler := 0#8
    asleep := false
    mustExecuteOne := false
    midFlags := 0#3
    draws := s.draws + 1 }

/-- A reset that is no Power-on Reset (10_state.md R48): W, the general purpose cells, Z, DC, C, FSR and TMR0 are
unchanged; the latches and the hidden counts, of which the spec says nothing, are free values (log 14). DESIGN CHOICE
(log 32): the environment's fields, a pending peripheral request among them, stay as the step's input has left them, and a
flag raised inside the step is discarded. -/
def warmReset (k : ResetKind) (s : State) : State :=
  let tp := toPdAfterReset k s.asleep s.timeOut s.powerDown
  { s with
    status := 0#3 ++ BitVec.ofBool tp.1 ++ BitVec.ofBool tp.2 ++ s.status.extractLsb' 0 3
    optionReg := 0xFF#8
    pcon := pconAfterReset k s.dev s.pcon (Config.drawBor s.draws)
    pclath := 0#5
    intcon := intconAfterReset (Config.drawRbif s.draws)
    latches := Memory.drawn (Config.drawLatch s.draws)
    pc := 0#13
    stack := []
    wdtCount := Config.drawWdtCount s.draws
    prescaler := Config.drawPrescaler s.draws
    asleep := false
    mustExecuteOne := false
    midFlags := 0#3
    draws := s.draws + 1 }

/-- `Reset(kind)` (60_exceptions.md R161, 70_reset_and_hazards.md R170). -/
def resetTo (k : ResetKind) (s : State) : State :=
  match k with
  | .powerOn => powerOnReset s
  | .brownOut => warmReset .brownOut s
  | .watchdog => warmReset .watchdog s
  | .parityError => warmReset .parityError s
  | .external => warmReset .external s

end Sys2Proof.Machine
end

