-- ==== Sys2Proof/Machine/Events.lean ====
section
/-! DEFINITION. One step of the machine (60_exceptions.md R149): the inputs of the step, a reset, sleep and wake-up, an
interrupt entry, or one instruction (40_alu_common.md R99). -/

namespace Sys2Proof.Machine

/-- The input of the step about to be taken: the head of the schedule, or none when it is used up (log 9). -/
def currentInput (s : State) : StepInput := s.inputs.headD StepInput.quiet

/-- An edge of the INT pin of the sense INTEDG selects (60_exceptions.md R152, 10_state.md R30). -/
def intEdgeSeen (optionReg : Byte) (before after : Bool) : Bool :=
  match intEdge optionReg with
  | .rising => !before && after
  | .falling => before && !after

/-- Such an edge among the levels the pin goes to, from the level before them (log 11). -/
def intEdgeAmong (optionReg : Byte) : Bool → List Bool → Bool
  | _, [] => false
  | pin, level :: rest => intEdgeSeen optionReg pin level || intEdgeAmong optionReg level rest

/-- The flags that events raise, T0IF : INTF : RBIF, whether or not they are enabled (60_exceptions.md R152, R153). -/
def flagsOf (optionReg : Byte) (pin : Bool) (e : FlagEvents) : BitVec 3 :=
  BitVec.ofBool e.timer0Overflow ++ BitVec.ofBool (intEdgeAmong optionReg pin e.intPin) ++ BitVec.ofBool e.portBChange

/-- INTCON with flags raised; an event never clears a flag (60_exceptions.md R153). -/
def raiseFlags (intcon : Byte) (flags : BitVec 3) : Byte := intcon ||| flags.zeroExtend 8

/-- The input of the step taken off the schedule: the events of the boundary are applied, those inside the step wait in
`midFlags` (60_exceptions.md R149, 20_memory.md R72, log 10). -/
def takeInput (s : State) : State :=
  let inp := currentInput s
  let pin := inp.before.intPin.getLastD s.intPin
  { s with
    inputs := s.inputs.tail
    intcon := raiseFlags s.intcon (flagsOf s.optionReg s.intPin inp.before)
    midFlags := flagsOf s.optionReg pin inp.during
    intPin := inp.during.intPin.getLastD pin
    peripheralReq := inp.peripheral.getD s.peripheralReq
    platformPending := inp.pending
    ioIn := inp.ioRead }

/-- The flags raised inside the step join INTCON at its end (20_memory.md R72). -/
def State.landMidFlags (s : State) : State := { s with intcon := raiseFlags s.intcon s.midFlags, midFlags := 0#3 }

/-- The flags raised inside a step join the state it answers. -/
def landFlags : Host.Outcome State Fault Refusal → Host.Outcome State Fault Refusal
  | .next t => .next t.landMidFlags
  | .fault e => .fault e
  | .refused r => .refused r

/-- A Watchdog time-out happens: the environment says so and the Watchdog is on (60_exceptions.md R163). -/
def wdtTimesOut (s : State) (inp : StepInput) : Bool := inp.wdtTimeout && decide (s.dev.wdtModel = .anyTime)

/-- The reset to take at this boundary: a requested one, or a Watchdog time-out while awake (60_exceptions.md R149, R164). -/
def resetDue (s : State) (inp : StepInput) : Option ResetKind :=
  match inp.reset with
  | some r => some r.kind
  | none => if wdtTimesOut s inp && !s.asleep then some .watchdog else none

/-- A wake-up event is present: a Watchdog time-out, or an enabled interrupt request whatever GIE is (60_exceptions.md R169). -/
def wakeEvent (s : State) (inp : StepInput) : Bool := wdtTimesOut s inp || intPending s

/-- `Wake()` (60_exceptions.md R169). With both causes at once both lines apply (log 13). -/
def wake (s : State) (inp : StepInput) : State :=
  { s with
    asleep := false
    status := if wdtTimesOut s inp then putBit s.status 4 false else s.status
    mustExecuteOne := s.mustExecuteOne || (intPending s && s.gie) }

/-- `InstrStep()`: fetch, advance the PC, decode, execute (40_alu_common.md R99). -/
def instrStep (s : State) : Host.Outcome State Fault Refusal :=
  match progRead s s.pc with
  | .error e => .fault e
  | .ok word =>
    match decode word with
    | .error (.undefinedWord w) => .refused (.undefinedInstruction w)
    | .ok i => exec i (advancePc s)

/-- `MachineStep()` with no reset: wake-up, then interrupt, then instruction (60_exceptions.md R149). -/
def runStep (s : State) (inp : StepInput) : Host.Outcome State Fault Refusal :=
  if s.asleep then .next (if wakeEvent s inp then wake s inp else s)
  else if s.mustExecuteOne then instrStep s.clearMustExecute
  else if s.gie && intPending s then finish (interruptEntry s)
  else instrStep s

/-- `MachineStep()` once its input is applied (60_exceptions.md R149). -/
def stepWith (s : State) (inp : StepInput) : Host.Outcome State Fault Refusal :=
  match resetDue s inp with
  | some k => .next (resetTo k s)
  | none => landFlags (runStep s inp)

/-- `MachineStep()` (60_exceptions.md R149). -/
def machineStep (s : State) : Host.Outcome State Fault Refusal := stepWith (takeInput s) (currentInput s)

/-- The input without the events that would keep the next step from running an instruction. -/
def StepInput.withoutResets (inp : StepInput) : StepInput := { inp with reset := none, wdtTimeout := false }

/-- The schedule with its next entry freed of resets. -/
def firstWithoutResets : List StepInput → List StepInput
  | [] => []
  | inp :: rest => inp.withoutResets :: rest

/-- The state made ready to run the instruction at its PC in the very next step: no reset comes with that step, the
device is awake, and an interrupt that would be taken in it waits for one instruction. -/
def readyToFetch (s : State) : State :=
  let t : State := { s with inputs := firstWithoutResets s.inputs, asleep := false }
  { t with mustExecuteOne := t.mustExecuteOne || (t.gie && intPending (takeInput t)) }

end Sys2Proof.Machine
end

