-- ==== Sys2Proof/Machine/Step.lean ====
section
/-! DEFINITION. The step function of the machine, and the placing of one instruction where the step fetches it. -/

namespace Sys2Proof.Machine

/-- One step (60_exceptions.md R149). -/
def step (s : State) : Host.Outcome State Fault Refusal := machineStep s

/-- `s` with the instruction word of bits `w` stored in program memory at the PC, and ready to fetch it. This stands for
the loading of a program from outside the machine (log 3). -/
def State.withFetchWord (s : State) (_nbits w : Nat) : State :=
  readyToFetch { s with program := placeWord s.program s.pc.toNat (BitVec.ofNat 14 w) }

end Sys2Proof.Machine
end

