-- ==== Sys2Proof/WellFormed.lean ====
section
/-! DEFINITION. The well-formedness checks: of an instruction, of an instruction word (against the opcode map of
30_encoding.md R93, written here as rows of match and mask, apart from the decoder), of a device's parameters and of
a program image. -/

namespace Sys2Proof

/-- Every value of an operand field of `Instr` is one the encoding admits, because each field has exactly the width of
its encoding field (30_encoding.md R87 to R91): no check is left to make. -/
def Instr.wellFormed (_ : Instr) : Bool := true

/-- One row of the opcode map: a word `w` is the instruction exactly when `w &&& mask = pattern` (30_encoding.md R93). -/
structure OpcodeRow where
  mnemonic : String
  pattern : InstrWord
  mask : InstrWord
deriving DecidableEq, Repr

/-- Whether a word is this row's instruction (30_encoding.md R93). -/
def OpcodeRow.admits (r : OpcodeRow) (w : InstrWord) : Bool := w &&& r.mask == r.pattern

/-- The byte-oriented rows (30_encoding.md R86, R93). -/
def opcodeRowsByte : List OpcodeRow :=
  [⟨"ADDWF", 0x0700, 0x3F00⟩, ⟨"ANDWF", 0x0500, 0x3F00⟩, ⟨"CLRF", 0x0180, 0x3F80⟩, ⟨"CLRW", 0x0100, 0x3F80⟩,
   ⟨"COMF", 0x0900, 0x3F00⟩, ⟨"DECF", 0x0300, 0x3F00⟩, ⟨"DECFSZ", 0x0B00, 0x3F00⟩, ⟨"INCF", 0x0A00, 0x3F00⟩,
   ⟨"INCFSZ", 0x0F00, 0x3F00⟩, ⟨"IORWF", 0x0400, 0x3F00⟩, ⟨"MOVF", 0x0800, 0x3F00⟩, ⟨"MOVWF", 0x0080, 0x3F80⟩,
   ⟨"NOP", 0x0000, 0x3F9F⟩, ⟨"RLF", 0x0D00, 0x3F00⟩, ⟨"RRF", 0x0C00, 0x3F00⟩, ⟨"SUBWF", 0x0200, 0x3F00⟩,
   ⟨"SWAPF", 0x0E00, 0x3F00⟩, ⟨"XORWF", 0x0600, 0x3F00⟩]

/-- The bit-oriented rows (30_encoding.md R93). -/
def opcodeRowsBit : List OpcodeRow :=
  [⟨"BCF", 0x1000, 0x3C00⟩, ⟨"BSF", 0x1400, 0x3C00⟩, ⟨"BTFSC", 0x1800, 0x3C00⟩, ⟨"BTFSS", 0x1C00, 0x3C00⟩]

/-- The literal and control rows (30_encoding.md R86, R93). -/
def opcodeRowsLiteral : List OpcodeRow :=
  [⟨"ADDLW", 0x3E00, 0x3E00⟩, ⟨"ANDLW", 0x3900, 0x3F00⟩, ⟨"CALL", 0x2000, 0x3800⟩, ⟨"CLRWDT", 0x0064, 0x3FFF⟩,
   ⟨"GOTO", 0x2800, 0x3800⟩, ⟨"IORLW", 0x3800, 0x3F00⟩, ⟨"MOVLW", 0x3000, 0x3C00⟩, ⟨"RETFIE", 0x0009, 0x3FFF⟩,
   ⟨"RETLW", 0x3400, 0x3C00⟩, ⟨"RETURN", 0x0008, 0x3FFF⟩, ⟨"SLEEP", 0x0063, 0x3FFF⟩, ⟨"SUBLW", 0x3C00, 0x3E00⟩,
   ⟨"XORLW", 0x3A00, 0x3F00⟩]

/-- The whole opcode map, in the order of Table 5-1. -/
def opcodeRows : List OpcodeRow := opcodeRowsByte ++ opcodeRowsBit ++ opcodeRowsLiteral

/-- The place of an instruction's row in `opcodeRows`, the order of Table 5-1. -/
def Instr.rowIndex : Instr → Nat
  | .addwf _ _ => 0
  | .andwf _ _ => 1
  | .clrf _ => 2
  | .clrw => 3
  | .comf _ _ => 4
  | .decf _ _ => 5
  | .decfsz _ _ => 6
  | .incf _ _ => 7
  | .incfsz _ _ => 8
  | .iorwf _ _ => 9
  | .movf _ _ => 10
  | .movwf _ => 11
  | .nop => 12
  | .rlf _ _ => 13
  | .rrf _ _ => 14
  | .subwf _ _ => 15
  | .swapf _ _ => 16
  | .xorwf _ _ => 17
  | .bcf _ _ => 18
  | .bsf _ _ => 19
  | .btfsc _ _ => 20
  | .btfss _ _ => 21
  | .addlw _ => 22
  | .andlw _ => 23
  | .call _ => 24
  | .clrwdt => 25
  | .goto _ => 26
  | .iorlw _ => 27
  | .movlw _ => 28
  | .retfie => 29
  | .retlw _ => 30
  | .ret => 31
  | .sleep => 32
  | .sublw _ => 33
  | .xorlw _ => 34

/-- The don't-care bits of an instruction's encoding: bits 6:0 of CLRW, 6:5 of NOP, 8 of ADDLW and SUBLW, 9:8 of MOVLW
and RETLW, no other (30_encoding.md R92). -/
def Instr.dontCareMask : Instr → InstrWord
  | .clrw => 0x007F#14
  | .nop => 0x0060#14
  | .addlw _ => 0x0100#14
  | .sublw _ => 0x0100#14
  | .movlw _ => 0x0300#14
  | .retlw _ => 0x0300#14
  | _ => 0x0000#14

/-- A word is defined when some row admits it (30_encoding.md R95). -/
def wordDefined (w : InstrWord) : Bool := opcodeRows.any (fun r => r.admits w)

/-- The replacements of the file map name each address once: `FileMap` gives every address one cell (20_memory.md R54). -/
def Device.fileMapIsMap (d : Device) : Bool := decide ((d.fileMapChanges.map Prod.fst).Nodup)

/-- No replacement stands at the offset of STATUS, which is in every bank (10_state.md R27). -/
def Device.statusInEveryBank (d : Device) : Bool :=
  d.fileMapChanges.all (fun c => c.1.extractLsb' 0 7 != d.statusOffset)

/-- A two-bank device has no register in banks 2 and 3 (20_memory.md R55). -/
def Device.changesInBanks (d : Device) : Bool :=
  d.banks == .four || d.fileMapChanges.all (fun c => !c.1.getLsbD 8)

/-- The parameters describe a device. -/
def Device.wf (d : Device) : Bool := d.fileMapIsMap && d.statusInEveryBank && d.changesInBanks

/-- `PROG_WORDS` is at most 2^`PC_BITS` (00_scope.md R2). -/
def programFits (d : Device) (p : List InstrWord) : Bool := decide (p.length ≤ 2 ^ d.pcWidth.bits)

end Sys2Proof
end

