-- ==== Sys2Proof/Safety.lean ====
section
/-! DEFINITION. The terms that claims about the machine use: what a register holds, what an instruction may touch, what a
result looks like from outside (written apart from the meanings, register by register), the machine's invariant, and the
end of a run. -/

namespace Sys2Proof.Machine

/-! ### What the instructions name -/

/-- The file register an instruction names, if it has an `f` field (30_encoding.md R97). -/
def fileFieldOf : Instr → Option FileField
  | .addwf f _ => some f
  | .andwf f _ => some f
  | .clrf f => some f
  | .clrw => none
  | .comf f _ => some f
  | .decf f _ => some f
  | .decfsz f _ => some f
  | .incf f _ => some f
  | .incfsz f _ => some f
  | .iorwf f _ => some f
  | .movf f _ => some f
  | .movwf f => some f
  | .nop => none
  | .rlf f _ => some f
  | .rrf f _ => some f
  | .subwf f _ => some f
  | .swapf f _ => some f
  | .xorwf f _ => some f
  | .bcf f _ => some f
  | .bsf f _ => some f
  | .btfsc f _ => some f
  | .btfss f _ => some f
  | .addlw _ => none
  | .andlw _ => none
  | .call _ => none
  | .clrwdt => none
  | .goto _ => none
  | .iorlw _ => none
  | .movlw _ => none
  | .retfie => none
  | .retlw _ => none
  | .ret => none
  | .sleep => none
  | .sublw _ => none
  | .xorlw _ => none

/-- The file register an instruction writes: `f` with d = 1, or without a `d` in CLRF, MOVWF, BCF, BSF (10_state.md R8). -/
def fileWrittenBy : Instr → Option FileField
  | .addwf f .f => some f
  | .andwf f .f => some f
  | .clrf f => some f
  | .comf f .f => some f
  | .decf f .f => some f
  | .decfsz f .f => some f
  | .incf f .f => some f
  | .incfsz f .f => some f
  | .iorwf f .f => some f
  | .movf f .f => some f
  | .movwf f => some f
  | .rlf f .f => some f
  | .rrf f .f => some f
  | .subwf f .f => some f
  | .swapf f .f => some f
  | .xorwf f .f => some f
  | .bcf f _ => some f
  | .bsf f _ => some f
  | _ => none

/-- The cell an instruction writes in a state, if it writes one (20_memory.md R56, R57). -/
def cellWrittenBy (i : Instr) (s : State) : Option FileCell :=
  (fileWrittenBy i).map (fun f => fileCell s.dev (operandAddr s f))

/-- Whether an instruction writes W: CLRW, MOVLW, ADDLW, ANDLW, IORLW, SUBLW, XORLW, RETLW, and every byte-oriented
instruction whose destination bit is 0 (10_state.md R7). -/
def writesW : Instr → Bool
  | .addwf _ .w => true
  | .andwf _ .w => true
  | .clrw => true
  | .comf _ .w => true
  | .decf _ .w => true
  | .decfsz _ .w => true
  | .incf _ .w => true
  | .incfsz _ .w => true
  | .iorwf _ .w => true
  | .movf _ .w => true
  | .rlf _ .w => true
  | .rrf _ .w => true
  | .subwf _ .w => true
  | .swapf _ .w => true
  | .xorwf _ .w => true
  | .addlw _ => true
  | .andlw _ => true
  | .iorlw _ => true
  | .movlw _ => true
  | .retlw _ => true
  | .sublw _ => true
  | .xorlw _ => true
  | _ => false

/-- A set of the status bits that the device logic writes. -/
structure StatusBits where
  c : Bool
  dc : Bool
  z : Bool
  toPd : Bool
deriving DecidableEq, Repr

/-- The status bits each instruction writes as a side effect, the table of 10_state.md R23. -/
def statusBitsOf : Instr → StatusBits
  | .addwf _ _ => ⟨true, true, true, false⟩
  | .subwf _ _ => ⟨true, true, true, false⟩
  | .addlw _ => ⟨true, true, true, false⟩
  | .sublw _ => ⟨true, true, true, false⟩
  | .andwf _ _ => ⟨false, false, true, false⟩
  | .clrf _ => ⟨false, false, true, false⟩
  | .clrw => ⟨false, false, true, false⟩
  | .comf _ _ => ⟨false, false, true, false⟩
  | .decf _ _ => ⟨false, false, true, false⟩
  | .incf _ _ => ⟨false, false, true, false⟩
  | .iorwf _ _ => ⟨false, false, true, false⟩
  | .movf _ _ => ⟨false, false, true, false⟩
  | .xorwf _ _ => ⟨false, false, true, false⟩
  | .andlw _ => ⟨false, false, true, false⟩
  | .iorlw _ => ⟨false, false, true, false⟩
  | .xorlw _ => ⟨false, false, true, false⟩
  | .rlf _ _ => ⟨true, false, false, false⟩
  | .rrf _ _ => ⟨true, false, false, false⟩
  | .clrwdt => ⟨false, false, false, true⟩
  | .sleep => ⟨false, false, false, true⟩
  | .decfsz _ _ => ⟨false, false, false, false⟩
  | .incfsz _ _ => ⟨false, false, false, false⟩
  | .movwf _ => ⟨false, false, false, false⟩
  | .nop => ⟨false, false, false, false⟩
  | .swapf _ _ => ⟨false, false, false, false⟩
  | .bcf _ _ => ⟨false, false, false, false⟩
  | .bsf _ _ => ⟨false, false, false, false⟩
  | .btfsc _ _ => ⟨false, false, false, false⟩
  | .btfss _ _ => ⟨false, false, false, false⟩
  | .call _ => ⟨false, false, false, false⟩
  | .goto _ => ⟨false, false, false, false⟩
  | .movlw _ => ⟨false, false, false, false⟩
  | .retfie => ⟨false, false, false, false⟩
  | .retlw _ => ⟨false, false, false, false⟩
  | .ret => ⟨false, false, false, false⟩

/-! ### When an instruction completes -/

/-- The register `f` names can be accessed: its bank exists and there is a register at its address (10_state.md R17,
20_memory.md R61). -/
abbrev OperandOk (s : State) (f : FileField) : Prop :=
  reservedBank s.dev (operandAddr s f) = false ∧ fileCell s.dev (operandAddr s f) ≠ .unimplemented

/-- The stack can take what the instruction does to it (10_state.md R12, R13). -/
def stackOk (i : Instr) (s : State) : Bool :=
  match i with
  | .call _ => decide (s.stack.length < s.dev.stackDepth)
  | .ret => !s.stack.isEmpty
  | .retlw _ => !s.stack.isEmpty
  | .retfie => !s.stack.isEmpty
  | _ => true

/-- The conditions under which an instruction completes. -/
abbrev CanComplete (i : Instr) (s : State) : Prop :=
  stackOk i s = true ∧ ∀ f ∈ (fileFieldOf i).toList, OperandOk s f

/-! ### What a result looks like -/

/-- What a cell holds: a stored byte, or for TMR0 and an I/O register the value last written (20_memory.md R54, R63). -/
def contents (s : State) : FileCell → Byte
  | .status => s.status
  | .optionReg => s.optionReg
  | .pcon => pconValue s.dev s.pcon
  | .tmr0 => s.tmr0
  | .io n => s.latches.read n.toNat
  | .gpr n => s.ram.read n.toNat
  | .indf => 0x00#8
  | .fsr => s.fsr
  | .pcl => s.pc.extractLsb' 0 8
  | .pclath => s.pclath.zeroExtend 8
  | .intcon => s.intcon
  | .unimplemented => 0x00#8

/-- What a cell other than STATUS and PCL holds after a write of `r`: PCLATH keeps 5 bits (20_memory.md R68), PCON its
three status bits beside the configuration's MPEEN (10_state.md R42), INDF nothing (20_memory.md R57). -/
def keeps (d : Device) (c : FileCell) (r : Byte) : Byte :=
  match c with
  | .pclath => r &&& 0x1F#8
  | .pcon =>
    (if d.hasPer && d.configMpeen then 0x80#8 else 0x00#8) ||| (if d.hasPer then r &&& 0x04#8 else 0x00#8)
      ||| (r &&& 0x02#8) ||| (if d.hasBor then r &&& 0x01#8 else 0x00#8)
  | .indf => 0x00#8
  | .unimplemented => 0x00#8
  | _ => r

/-- What no data instruction touches: the device, program memory, the stack, the Watchdog count, the sleep flags and the
environment. -/
abbrev SameMachine (s t : State) : Prop :=
  t.dev = s.dev ∧ t.program = s.program ∧ t.stack = s.stack ∧ t.wdtCount = s.wdtCount ∧ t.asleep = s.asleep
    ∧ t.mustExecuteOne = s.mustExecuteOne ∧ t.intPin = s.intPin ∧ t.peripheralReq = s.peripheralReq
    ∧ t.platformPending = s.platformPending ∧ t.ioIn = s.ioIn ∧ t.inputs = s.inputs

/-- STATUS after an instruction that writes the status bits `u` and stores `r` in STATUS, or elsewhere: TO and PD stay;
bits 7:5 take `r` exactly when STATUS is the destination; each of C, DC, Z takes the computed value, or else the bit of
`r` when STATUS is the destination of an instruction that affects none of the three, or else stays (10_state.md R26). -/
def StatusAfter (s t : State) (toStatus : Bool) (r : Byte) (u : FlagUpdate) : Prop :=
  t.timeOut = s.timeOut ∧ t.powerDown = s.powerDown
    ∧ t.status.extractLsb' 5 3 = (if toStatus then r.extractLsb' 5 3 else s.status.extractLsb' 5 3)
    ∧ t.carry = u.c.getD (if toStatus && u.isNothing then r.getLsbD 0 else s.carry)
    ∧ t.digitCarry = u.dc.getD (if toStatus && u.isNothing then r.getLsbD 1 else s.digitCarry)
    ∧ t.zero = u.z.getD (if toStatus && u.isNothing then r.getLsbD 2 else s.zero)

/-- From `s` to `t`, the result `r` has gone to its destination: W, or the register at address `a`, whatever register
that is. It says what W, every file register, STATUS, the PC, the output events, the prescaler count, the cycle count and
the flags raised inside the step are afterwards (a write of INTCON loses those, 20_memory.md R72), and that nothing else has
changed. `skips`: the next instruction is passed over. -/
def Delivers (s t : State) (a : DataAddr) (d : Dest) (r : Byte) (u : FlagUpdate) (skips : Bool) : Prop :=
  let c := fileCell s.dev a
  let pc1 := if d = .f ∧ c = .pcl then pclTarget s r else s.pc
  SameMachine s t
    ∧ t.w = (if d = .w then r else s.w)
    ∧ StatusAfter s t (decide (d = .f ∧ c = .status)) r u
    ∧ (∀ c', c' ≠ .status → c' ≠ .pcl →
        contents t c' = if d = .f ∧ c' = c then keeps s.dev c r else contents s c')
    ∧ t.pc = (if skips then nextPc s.dev pc1 else pc1)
    ∧ t.outputs = (match d, c with
        | .f, .io _ => (a, r) :: s.outputs
        | _, _ => s.outputs)
    ∧ t.prescaler = (if d = .f ∧ c = .tmr0 ∧ prescalerToWdt s.optionReg = false then 0x00#8 else s.prescaler)
    ∧ t.midFlags = (if d = .f ∧ c = .intcon then 0#3 else s.midFlags)
    ∧ t.cycles = s.cycles + (if skips ∨ (d = .f ∧ c = .pcl) then 1 else 0)

/-- The value the instruction's operand register reads as. -/
abbrev operandValue (s : State) (f : FileField) : Byte := peek s (operandAddr s f)

/-- A byte-oriented instruction `i` with field `f` completes, and delivers a result with its status bits. -/
def CompletesWith (i : Instr) (s : State) (f : FileField) (d : Dest) (r : Byte) (u : FlagUpdate) (skips : Bool) : Prop :=
  ∃ t, exec i s = .next t ∧ Delivers s t (operandAddr s f) d r u skips

/-- A literal instruction completes: W takes `r`, the status bits in `u` are written, and nothing else changes. -/
def LiteralResult (i : Instr) (s : State) (r : Byte) (u : FlagUpdate) : Prop :=
  ∃ t, exec i s = .next t ∧ t = { s with w := r, status := t.status } ∧ StatusAfter s t false r u

/-- Both C, DC, Z of an addition: the carry out of bit 7, the carry out of bit 3, the result zero (10_state.md R20 to R22). -/
def addFlags (a b : Byte) : FlagUpdate :=
  ⟨some (decide (256 ≤ a.toNat + b.toNat)), some (decide (16 ≤ a.toNat % 16 + b.toNat % 16)),
   some (decide ((a.toNat + b.toNat) % 256 = 0))⟩

/-- C, DC, Z of `a - b`: no borrow, no digit borrow, the operands equal (40_alu_common.md R104). -/
def subFlags (a b : Byte) : FlagUpdate :=
  ⟨some (decide (b.toNat ≤ a.toNat)), some (decide (b.toNat % 16 ≤ a.toNat % 16)), some (decide (a = b))⟩

/-- Z alone. -/
def zeroFlag (z : Bool) : FlagUpdate := ⟨none, none, some z⟩

/-- C alone. -/
def carryFlag (c : Bool) : FlagUpdate := ⟨some c, none, none⟩

/-! ### The boundary before a step -/

/-- No reset comes with the next step. -/
abbrev NoReset (s : State) : Prop := resetDue (takeInput s) (currentInput s) = none

/-- The next step executes an instruction: no reset, awake, and no interrupt entry (60_exceptions.md R149). -/
abbrev RunsInstruction (s : State) : Prop :=
  NoReset s ∧ s.asleep = false
    ∧ (s.mustExecuteOne = true ∨ (takeInput s).gie = false ∨ intPending (takeInput s) = false)

/-- The state an instruction of the next step runs on: the step's input taken, `mustExecuteOne` used up, the PC advanced. -/
def fetched (s : State) : State := advancePc (takeInput s).clearMustExecute

/-! ### The invariant -/

/-- A program address of `PC_BITS` bits. -/
abbrev pcFits (d : Device) (a : ProgAddr) : Prop := a.toNat < 2 ^ d.pcWidth.bits

/-- What every step keeps: the PC and the stack entries have `PC_BITS` bits, the stack holds at most `STACK_DEPTH` entries,
the cells and the latches have their canonical form, the program fits, and a device asleep has TO = 1, PD = 0 and no
instruction owed (10_state.md R9, R11, 00_scope.md R2, 60_exceptions.md R168, R169). -/
abbrev State.Inv (s : State) : Prop :=
  pcFits s.dev s.pc ∧ (∀ a ∈ s.stack, pcFits s.dev a) ∧ s.stack.length ≤ s.dev.stackDepth
    ∧ Memory.wf s.ram = true ∧ Memory.wf s.latches = true ∧ programFits s.dev s.program = true
    ∧ (s.asleep = true → s.timeOut = true ∧ s.powerDown = false ∧ s.mustExecuteOne = false)

/-! ### Runs -/

/-- A run has ended when the PC is one of the chosen addresses `TerminalPCs` (70_reset_and_hazards.md R177). DESIGN CHOICE
(log 33): a device asleep with no wake-up source, which the rule lets one count as ended too, is not counted. -/
def ended (terminalPcs : List ProgAddr) (s : State) : Bool := terminalPcs.contains s.pc

/-- A step is safe when it neither faults nor refuses. -/
def SafeStep (s : State) : Prop := ∃ t, step s = .next t

end Sys2Proof.Machine
end

