-- ==== Sys2Proof/Certificates/Slice0/Obligations.lean ====
section
/-! DEFINITION. The statements about the machine that the provers are asked to settle. Each docstring names the rules of
spec/ it formalises; a statement that rests on a choice of the model says so. -/

open Sys2Proof Sys2Proof.Machine

/-! ### Encoding -/

/-- Decoding an encoded instruction gives it back, for all 35 instructions and every value of every operand field
(30_encoding.md R93, R94). -/
def Obligations.DecodeOfEncodeIsIdentity : Prop :=
  ∀ i : Instr, decode (encode i) = .ok i ∧ decodeTableWord 14 (encode i).toNat = some i

/-- 30_encoding.md R92: words that differ in don't-care bits alone are one instruction, and the encoder writes 0 there. -/
def Obligations.DontCareBitsDoNotMatter : Prop :=
  ∀ (w : InstrWord) (i : Instr), decode w = .ok i →
    encode i = w &&& ~~~i.dontCareMask
      ∧ ∀ w' : InstrWord, w' &&& ~~~i.dontCareMask = w &&& ~~~i.dontCareMask → decode w' = .ok i

/-- 30_encoding.md R95: the undefined words are exactly 0000h to 007Fh but for eight, and 3B00h to 3BFFh, 376 in all; no
row of the opcode map admits one, and a step that fetches one is refused by name. -/
def Obligations.UndefinedWordsAreRefused : Prop :=
  let undefined : InstrWord → Prop := fun w =>
    (w.toNat < 0x80 ∧ w.toNat ∉ [0x00, 0x08, 0x09, 0x20, 0x40, 0x60, 0x63, 0x64]) ∨ (0x3B00 ≤ w.toNat ∧ w.toNat ≤ 0x3BFF)
  (∀ w, undefined w ↔ decode w = .error (.undefinedWord w))
    ∧ (∀ w, undefined w ↔ wordDefined w = false)
    ∧ ((List.range 16384).filter (fun n => !wordDefined (BitVec.ofNat 14 n))).length = 376
    ∧ ∀ (s : State) (w : InstrWord), RunsInstruction s → s.program[s.pc.toNat]? = some w → undefined w →
        step s = .refused (.undefinedInstruction w)

/-- 30_encoding.md R93: a word is the instruction of a row exactly when `word & mask = match`; so no word is two. -/
def Obligations.DecoderFollowsTheOpcodeMap : Prop :=
  ∀ (w : InstrWord) (k : Nat), k < 35 →
    ((opcodeRows[k]?).any (fun r => r.admits w) = true ↔ ∃ i, decode w = .ok i ∧ i.rowIndex = k)

/-- A few words of each family, written out from 30_encoding.md R93 and 95_test_vectors.md section 1.1. -/
def Obligations.WordsOfEachFamilyDecode : Prop :=
  decode 0b00011110100000#14 = .ok (.addwf 0x20#7 .f) ∧ decode 0b00001010100000#14 = .ok (.subwf 0x20#7 .f)
    ∧ decode 0b00000110000011#14 = .ok (.clrf 0x03#7) ∧ decode 0b01100100000011#14 = .ok (.btfsc 0x03#7 2#3)
    ∧ decode 0b01001110100000#14 = .ok (.bcf 0x20#7 7#3) ∧ decode 0b11111100010101#14 = .ok (.addlw 0x15#8)
    ∧ decode 0b10000100100011#14 = .ok (.call 0x123#11) ∧ decode 0b10100000000101#14 = .ok (.goto 0x005#11)
    ∧ decode 0b00000001100100#14 = .ok .clrwdt ∧ decode 0b00000000001001#14 = .ok .retfie

/-! ### The step and its events -/

/-- 40_alu_common.md R99, 60_exceptions.md R149: when no event comes first, the step fetches the word at the PC, advances
the PC and executes the instruction the word decodes to, on the state with the step's input taken. At its end the flags
that events raised inside the step, and that the instruction has not written over, join INTCON (20_memory.md R72). That the
inputs are a schedule, taken at the start of the step, is the model's choice (log 9, log 10). -/
def Obligations.StepRunsTheDecodedInstruction : Prop :=
  ∀ (s : State) (word : InstrWord) (i : Instr), RunsInstruction s → s.program[s.pc.toNat]? = some word →
    decode word = .ok i →
    (∀ t, exec i (fetched s) = .next t → step s = .next t.landMidFlags)
      ∧ (∀ e, exec i (fetched s) = .fault e → step s = .fault e)
      ∧ (∀ e, exec i (fetched s) = .refused e → step s = .refused e)
      ∧ (fetched s).pc.toNat = (s.pc.toNat + 1) % 2 ^ s.dev.pcWidth.bits
      ∧ fetched s = { takeInput s with mustExecuteOne := false, pc := (fetched s).pc, cycles := s.cycles + 1 }

/-- 60_exceptions.md R155: with GIE set and a request pending, the step executes no instruction: GIE is cleared, the PC
pushed, the PC becomes 0004h whatever PCLATH holds, and nothing else changes but the flags raised inside the step; a full
stack faults. The schedule of inputs (log 9, log 10), the form of the request (log 12) and the cycle count that an entry
leaves (log 23) are the model's. -/
def Obligations.InterruptEntrySavesThePc : Prop :=
  ∀ s : State, NoReset s → s.asleep = false → s.mustExecuteOne = false → (takeInput s).gie = true →
    intPending (takeInput s) = true →
    (s.stack.length < s.dev.stackDepth →
      step s = .next (State.landMidFlags { takeInput s with
        intcon := (takeInput s).intcon &&& 0x7F#8, stack := s.pc :: s.stack, pc := 0x0004#13 }))
    ∧ (s.dev.stackDepth ≤ s.stack.length → step s = .fault .stackOverflow)

/-- 60_exceptions.md R168: while asleep with no wake-up event and no reset, no instruction executes and no state of the
core changes: only the environment's input is taken and interrupt flags may be raised (the schedule is the model's, log 9
and log 10). -/
def Obligations.SleepingDeviceExecutesNothing : Prop :=
  ∀ s : State, NoReset s → s.asleep = true → wakeEvent (takeInput s) (currentInput s) = false →
    ∃ t, step s = .next t ∧ t = { s with
      inputs := t.inputs, intPin := t.intPin, peripheralReq := t.peripheralReq, midFlags := t.midFlags,
      platformPending := t.platformPending, ioIn := t.ioIn, intcon := t.intcon }
      ∧ t.intcon &&& 0xF8#8 = s.intcon &&& 0xF8#8 ∧ ∀ j, s.intcon.getLsbD j = true → t.intcon.getLsbD j = true

/-- 60_exceptions.md R169, `Wake()`: the device is awake at the instruction after the SLEEP, a Watchdog time-out clears TO,
an interrupt request with GIE = 1 makes one instruction run first, PD and everything else the core holds stays. That both
lines apply when both causes come at once is the model's reading (log 13). -/
def Obligations.WakeUpResumesAfterTheSleep : Prop :=
  ∀ s : State, NoReset s → s.asleep = true → wakeEvent (takeInput s) (currentInput s) = true →
    ∃ t, step s = .next t ∧ t.asleep = false
      ∧ t.timeOut = (s.timeOut && !wdtTimesOut s (currentInput s))
      ∧ t.status &&& 0xEF#8 = s.status &&& 0xEF#8
      ∧ t.mustExecuteOne = (s.mustExecuteOne || (intPending (takeInput s) && s.gie))
      ∧ t = State.landMidFlags
          { takeInput s with asleep := false, status := t.status, mustExecuteOne := t.mustExecuteOne }

/-- 60_exceptions.md R169, R149: after a wake-up by an interrupt request with GIE = 1, the next step executes the
instruction after the SLEEP, although the request still stands (the schedule is the model's, log 9 and log 10). -/
def Obligations.OneInstructionRunsBeforeTheInterrupt : Prop :=
  ∀ (s t : State) (word : InstrWord) (i : Instr), NoReset s → s.asleep = true → intPending (takeInput s) = true →
    s.gie = true → step s = .next t → NoReset t → s.program[s.pc.toNat]? = some word → decode word = .ok i →
    t.pc = s.pc ∧ step t = landFlags (exec i (fetched t)) ∧ (fetched t).mustExecuteOne = false

/-- 60_exceptions.md R164: a Watchdog time-out clears TO. Awake it is a reset that leaves PD = 1 and the PC at 0000h; asleep
it is a wake-up that leaves PD = 0 and continues after the SLEEP; POR and BOR stay (R161, second table). When a time-out
comes is the schedule's to say (log 9, log 29). -/
def Obligations.WatchdogResetsAwakeAndWakesAsleep : Prop :=
  ∀ s : State, s.Inv → (currentInput s).reset = none → (currentInput s).wdtTimeout = true → s.dev.configWdte = true →
    ∃ t, step s = .next t ∧ t.timeOut = false ∧ t.asleep = false ∧ t.w = s.w ∧ t.ram = s.ram ∧ t.pcon = s.pcon
      ∧ t.carry = s.carry ∧ t.digitCarry = s.digitCarry ∧ t.zero = s.zero
      ∧ (s.asleep = false → t.powerDown = true ∧ t.pc = 0x0000#13 ∧ t.stack = [] ∧ t.rp = 0#2 ∧ t.irp = 0#1)
      ∧ (s.asleep = true → t.powerDown = false ∧ t.pc = s.pc ∧ t.stack = s.stack ∧ t.rp = s.rp ∧ t.irp = s.irp)

/-- 60_exceptions.md R152, R153, 20_memory.md R72: taking a step's input sets INTF on an edge of the INT pin of the sense
INTEDG selects, T0IF on a Timer0 overflow and RBIF on a PORTB change, whatever the enable bits are, clears no flag, and
touches no other bit of INTCON. What comes inside the step, after the levels the pin took before it, waits in `midFlags`,
and landing raises those flags and touches nothing else. The schedule of inputs, the list of levels and the waiting are the
model's form of the environment (log 9, log 10, log 11). -/
def Obligations.InterruptFlagsAreRaisedAndNeverCleared : Prop :=
  ∀ s : State,
    let before := (currentInput s).before
    let during := (currentInput s).during
    let pin := before.intPin.getLastD s.intPin
    let edgeAmong : Bool → List Bool → Bool := fun first levels =>
      ((first :: levels).zip levels).any (fun p => if s.optionReg.getLsbD 6 then !p.1 && p.2 else p.1 && !p.2)
    (takeInput s).intcon.getLsbD 1 = (s.intcon.getLsbD 1 || edgeAmong s.intPin before.intPin)
      ∧ (takeInput s).intcon.getLsbD 2 = (s.intcon.getLsbD 2 || before.timer0Overflow)
      ∧ (takeInput s).intcon.getLsbD 0 = (s.intcon.getLsbD 0 || before.portBChange)
      ∧ (takeInput s).intcon &&& 0xF8#8 = s.intcon &&& 0xF8#8
      ∧ (takeInput s).midFlags.getLsbD 1 = edgeAmong pin during.intPin
      ∧ (takeInput s).midFlags.getLsbD 2 = during.timer0Overflow
      ∧ (takeInput s).midFlags.getLsbD 0 = during.portBChange
      ∧ (takeInput s).intPin = during.intPin.getLastD pin
      ∧ s.landMidFlags = { s with intcon := s.landMidFlags.intcon, midFlags := 0#3 }
      ∧ ∀ j, s.landMidFlags.intcon.getLsbD j = (s.intcon.getLsbD j || s.midFlags.getLsbD j)

/-- 60_exceptions.md R154, R169: a request is pending when a flag of INTCON and its enable are set, or a peripheral request
and INTCON<6>, whatever GIE is, unless the platform says otherwise (00_scope.md R2; log 12); and a device asleep wakes on a
Watchdog time-out, with the Watchdog on, or on such a request. -/
def Obligations.InterruptRequestAndWakeUpConditions : Prop :=
  ∀ (s : State) (inp : StepInput),
    (s.platformPending = none → (intPending s = true ↔
      (s.intcon.getLsbD 1 = true ∧ s.intcon.getLsbD 4 = true) ∨ (s.intcon.getLsbD 2 = true ∧ s.intcon.getLsbD 5 = true)
        ∨ (s.intcon.getLsbD 0 = true ∧ s.intcon.getLsbD 3 = true)
        ∨ (s.peripheralReq = true ∧ s.intcon.getLsbD 6 = true)))
      ∧ (∀ b, s.platformPending = some b → intPending s = b)
      ∧ intPending { s with intcon := s.intcon ^^^ 0x80#8 } = intPending s
      ∧ (wakeEvent s inp = true ↔ (inp.wdtTimeout = true ∧ s.dev.configWdte = true) ∨ intPending s = true)

/-! ### Reset -/

/-- 10_state.md R47, 70_reset_and_hazards.md R171: the values the spec gives for a Power-on Reset, in the reset state. The
values the spec leaves unspecified there, which the model chooses (log 4), are not stated. -/
def Obligations.ResetStateHasTheSpecifiedValues : Prop :=
  State.reset.status.extractLsb' 3 5 = 0b00011#5 ∧ State.reset.optionReg = 0xFF#8
    ∧ State.reset.pcon.extractLsb' 1 2 = 0b00#2 ∧ State.reset.pc = 0x0000#13 ∧ State.reset.pclath = 0#5
    ∧ State.reset.gie = false ∧ State.reset.intcon.extractLsb' 1 7 = 0#7 ∧ State.reset.stack = []
    ∧ State.reset.wdtCount = 0 ∧ State.reset.prescaler = 0#8 ∧ State.reset.asleep = false
    ∧ State.reset.mustExecuteOne = false

/-- 10_state.md R47, 60_exceptions.md R161: a Power-on Reset requested in any state leaves the values the spec gives,
whatever the drawn ones are (log 5), and keeps the device and program memory. -/
def Obligations.PowerOnResetFromAnyState : Prop :=
  ∀ s : State, (currentInput s).reset = some .powerOn →
    ∃ t, step s = .next t ∧ t.status.extractLsb' 3 5 = 0b00011#5 ∧ t.optionReg = 0xFF#8
      ∧ pconValue t.dev t.pcon &&& 0xFE#8 = (if s.dev.hasPer && s.dev.configMpeen then 0x80#8 else 0x00#8)
      ∧ t.pc = 0x0000#13 ∧ t.pclath = 0#5 ∧ t.intcon.extractLsb' 1 7 = 0#7 ∧ t.stack = [] ∧ t.wdtCount = 0
      ∧ t.prescaler = 0#8 ∧ t.asleep = false ∧ t.mustExecuteOne = false ∧ t.dev = s.dev ∧ t.program = s.program
      ∧ Memory.wf t.ram = true ∧ Memory.wf t.latches = true

/-- 10_state.md R48, 60_exceptions.md R161: the other requested resets. TO and PD by the table (asleep or awake for the
external reset); Brown-out clears BOR when the circuit is on, a parity error clears PER when the circuit is on, and no
other bit of PCON changes; W, the cells, Z, DC and C stay. That FSR and TMR0 stay is general knowledge the spec quotes
(GK9, log 14); the two circuits' conditions are those of log 15. -/
def Obligations.OtherResetsFollowTheTable : Prop :=
  ∀ (s : State) (r : ResetRequest), (currentInput s).reset = some r → r ≠ .powerOn →
    ∃ t, step s = .next t ∧ t.pc = 0x0000#13 ∧ t.stack = [] ∧ t.optionReg = 0xFF#8 ∧ t.pclath = 0#5 ∧ t.gie = false
      ∧ t.asleep = false ∧ t.mustExecuteOne = false
      ∧ t.w = s.w ∧ t.ram = s.ram ∧ t.fsr = s.fsr ∧ t.tmr0 = s.tmr0
      ∧ t.status.extractLsb' 5 3 = 0#3 ∧ t.status.extractLsb' 0 3 = s.status.extractLsb' 0 3
      ∧ (r = .brownOut → t.timeOut = true ∧ t.powerDown = true
          ∧ t.pcon.extractLsb' 1 2 = s.pcon.extractLsb' 1 2
          ∧ (s.dev.hasBor = true → s.dev.configBoden = true → t.pcon.getLsbD 0 = false))
      ∧ (r = .parityError → t.timeOut = s.timeOut ∧ t.powerDown = s.powerDown
          ∧ t.pcon.extractLsb' 0 2 = s.pcon.extractLsb' 0 2
          ∧ t.pcon.getLsbD 2 = (if s.dev.hasPer && s.dev.configMpeen then false else s.pcon.getLsbD 2))
      ∧ (r = .external → t.pcon = s.pcon
          ∧ t.timeOut = (if s.asleep then true else s.timeOut) ∧ t.powerDown = (if s.asleep then false else s.powerDown))

/-! ### Fetch -/

/-- 20_memory.md R52: a fetch below `PROG_WORDS` gives the word of the image; at or above it the step faults. -/
def Obligations.FetchOutsideProgramFaults : Prop :=
  (∀ (s : State) (a : ProgAddr) (h : a.toNat < s.program.length), progRead s a = .ok s.program[a.toNat])
    ∧ (∀ (s : State) (a : ProgAddr), s.program.length ≤ a.toNat → progRead s a = .error .fetchOutsideProgram)
    ∧ ∀ s : State, RunsInstruction s → s.program.length ≤ s.pc.toNat → step s = .fault .fetchOutsideProgram

/-! ### The ALU -/

/-- 40_alu_common.md R103: `Add8`. -/
def Obligations.AdditionRule : Prop :=
  ∀ a b : Byte, (add8 a b).result.toNat = (a.toNat + b.toNat) % 256 ∧ (add8 a b).flags = addFlags a b

/-- 40_alu_common.md R104: `Sub8`, with C and DC as reversed borrows, W = 00h borrowing nothing, and the three cases. -/
def Obligations.SubtractionRule : Prop :=
  ∀ a b : Byte, (sub8 a b).result = a - b ∧ (sub8 a b).flags = subFlags a b
    ∧ (b.toNat < a.toNat → (sub8 a b).flags.c = some true ∧ (sub8 a b).flags.z = some false)
    ∧ (a = b → sub8 a b = ⟨0x00#8, ⟨some true, some true, some true⟩⟩)
    ∧ (a.toNat < b.toNat → (sub8 a b).flags.c = some false ∧ (sub8 a b).flags.z = some false
        ∧ (sub8 a b).result.toNat = 256 + a.toNat - b.toNat)
    ∧ (b = 0x00#8 → (sub8 a b).flags.c = some true ∧ (sub8 a b).flags.dc = some true)

/-- 40_alu_common.md R107: the rotates go through C over 9 bits, C takes the bit moved out, Z and DC are not written, each
undoes the other, and nine in one direction restore both the register and C. -/
def Obligations.RotatesGoThroughCarry : Prop :=
  let left : Byte × Bool → Byte × Bool := fun p => ((rotateLeft p.1 p.2).result, p.1.getLsbD 7)
  let right : Byte × Bool → Byte × Bool := fun p => ((rotateRight p.1 p.2).result, p.1.getLsbD 0)
  (∀ (a : Byte) (c : Bool), (rotateLeft a c).result.toNat = (2 * a.toNat + c.toNat) % 256
      ∧ (rotateLeft a c).flags = carryFlag (decide (128 ≤ a.toNat)))
    ∧ (∀ (a : Byte) (c : Bool), (rotateRight a c).result.toNat = a.toNat / 2 + 128 * c.toNat
      ∧ (rotateRight a c).flags = carryFlag (decide (a.toNat % 2 = 1)))
    ∧ ∀ p : Byte × Bool, left (right p) = p ∧ right (left p) = p ∧ left^[9] p = p ∧ right^[9] p = p

/-! ### Byte-oriented instructions

In each, `CompletesWith i s f d r u skips` says that `exec i s` answers a next state in which `r` has gone to W or to the
register named by `f`, whatever register that is, with the status bits `u`, and that nothing else has changed. The list of
output events (log 31), the cycle count (log 23) and the count of draws (log 8) are the model's forms. -/

/-- ADDWF f, d (41_byte_oriented.md R114), for every register and both destinations. -/
def Obligations.AddwfAddsWAndF : Prop :=
  ∀ (s : State) (f : FileField) (d : Dest), s.Inv → OperandOk s f →
    CompletesWith (.addwf f d) s f d (BitVec.ofNat 8 (s.w.toNat + (operandValue s f).toNat))
      (addFlags s.w (operandValue s f)) false

/-- SUBWF f, d (41_byte_oriented.md R129): f - W, whichever destination. -/
def Obligations.SubwfSubtractsWFromF : Prop :=
  ∀ (s : State) (f : FileField) (d : Dest), s.Inv → OperandOk s f →
    CompletesWith (.subwf f d) s f d (BitVec.ofNat 8 (256 + (operandValue s f).toNat - s.w.toNat))
      (subFlags (operandValue s f) s.w) false

/-- ANDWF, IORWF, XORWF (41_byte_oriented.md R115, R123, R131): Z alone is written. -/
def Obligations.LogicOfWAndF : Prop :=
  ∀ (s : State) (f : FileField) (d : Dest), s.Inv → OperandOk s f →
    CompletesWith (.andwf f d) s f d (s.w &&& operandValue s f)
        (zeroFlag (decide (s.w &&& operandValue s f = 0x00#8))) false
      ∧ CompletesWith (.iorwf f d) s f d (s.w ||| operandValue s f)
        (zeroFlag (decide (s.w = 0x00#8 ∧ operandValue s f = 0x00#8))) false
      ∧ CompletesWith (.xorwf f d) s f d (s.w ^^^ operandValue s f)
        (zeroFlag (decide (s.w = operandValue s f))) false

/-- COMF and MOVF (41_byte_oriented.md R118, R124). -/
def Obligations.ComplementAndMoveOfF : Prop :=
  ∀ (s : State) (f : FileField) (d : Dest), s.Inv → OperandOk s f →
    CompletesWith (.comf f d) s f d (BitVec.ofNat 8 (255 - (operandValue s f).toNat))
        (zeroFlag (decide (operandValue s f = 0xFF#8))) false
      ∧ CompletesWith (.movf f d) s f d (operandValue s f) (zeroFlag (decide (operandValue s f = 0x00#8))) false

/-- INCF and DECF (41_byte_oriented.md R121, R119): Z alone, C and DC never. -/
def Obligations.IncrementAndDecrementOfF : Prop :=
  ∀ (s : State) (f : FileField) (d : Dest), s.Inv → OperandOk s f →
    CompletesWith (.incf f d) s f d (BitVec.ofNat 8 ((operandValue s f).toNat + 1))
        (zeroFlag (decide (operandValue s f = 0xFF#8))) false
      ∧ CompletesWith (.decf f d) s f d (BitVec.ofNat 8 ((operandValue s f).toNat + 255))
        (zeroFlag (decide (operandValue s f = 0x01#8))) false

/-- INCFSZ and DECFSZ (41_byte_oriented.md R122, R120): no status bit, and the next instruction is skipped exactly when the
result is 0. With PCL as destination the skip then goes on from the loaded PC: that is the model's reading of R112 and R67
together (log 24). -/
def Obligations.IncrementAndDecrementThatSkip : Prop :=
  ∀ (s : State) (f : FileField) (d : Dest), s.Inv → OperandOk s f →
    CompletesWith (.incfsz f d) s f d (BitVec.ofNat 8 ((operandValue s f).toNat + 1)) FlagUpdate.nothing
        (decide (operandValue s f = 0xFF#8))
      ∧ CompletesWith (.decfsz f d) s f d (BitVec.ofNat 8 ((operandValue s f).toNat + 255)) FlagUpdate.nothing
        (decide (operandValue s f = 0x01#8))

/-- RLF and RRF (41_byte_oriented.md R127, R128): through C, which alone is written. -/
def Obligations.RotatesOfF : Prop :=
  ∀ (s : State) (f : FileField) (d : Dest), s.Inv → OperandOk s f →
    CompletesWith (.rlf f d) s f d (BitVec.ofNat 8 (2 * (operandValue s f).toNat + s.carry.toNat))
        (carryFlag (decide (128 ≤ (operandValue s f).toNat))) false
      ∧ CompletesWith (.rrf f d) s f d (BitVec.ofNat 8 ((operandValue s f).toNat / 2 + 128 * s.carry.toNat))
        (carryFlag (decide ((operandValue s f).toNat % 2 = 1))) false

/-- SWAPF f, d (41_byte_oriented.md R130): no status bit. -/
def Obligations.SwapfExchangesNibbles : Prop :=
  ∀ (s : State) (f : FileField) (d : Dest), s.Inv → OperandOk s f →
    CompletesWith (.swapf f d) s f d
      (BitVec.ofNat 8 ((operandValue s f).toNat % 16 * 16 + (operandValue s f).toNat / 16)) FlagUpdate.nothing false

/-- CLRF and MOVWF (41_byte_oriented.md R116, R125): a write without a read, so no free value is drawn. -/
def Obligations.ClrfAndMovwfWriteF : Prop :=
  ∀ (s : State) (f : FileField), s.Inv → OperandOk s f →
    CompletesWith (.clrf f) s f .f 0x00#8 (zeroFlag true) false
      ∧ CompletesWith (.movwf f) s f .f s.w FlagUpdate.nothing false
      ∧ ∀ t, (exec (.clrf f) s = .next t ∨ exec (.movwf f) s = .next t) → t.draws = s.draws

/-- CLRW and NOP (41_byte_oriented.md R117, R126). -/
def Obligations.ClrwClearsWAndNopDoesNothing : Prop :=
  ∀ s : State, LiteralResult .clrw s 0x00#8 (zeroFlag true) ∧ exec .nop s = .next s

/-! ### Bit-oriented instructions -/

/-- BCF and BSF (42_bit_oriented.md R132, R133): the whole register is read and written back with one bit cleared or set. -/
def Obligations.BitClearAndBitSet : Prop :=
  ∀ (s : State) (f : FileField) (b : BitField), s.Inv → OperandOk s f →
    CompletesWith (.bcf f b) s f .f
        (BitVec.ofNat 8 ((operandValue s f).toNat - (if (operandValue s f).getLsbD b.toNat then 2 ^ b.toNat else 0)))
        FlagUpdate.nothing false
      ∧ CompletesWith (.bsf f b) s f .f
        (BitVec.ofNat 8 ((operandValue s f).toNat + (if (operandValue s f).getLsbD b.toNat then 0 else 2 ^ b.toNat)))
        FlagUpdate.nothing false

/-- BTFSC and BTFSS (42_bit_oriented.md R134, R135): the PC moves on by one more exactly when the bit is clear, or set, and
nothing is written. -/
def Obligations.BitTestsSkip : Prop :=
  ∀ (s : State) (f : FileField) (b : BitField), OperandOk s f →
    (∃ t, exec (.btfsc f b) s = .next t
      ∧ t = { s with
          pc := if (operandValue s f).getLsbD b.toNat then s.pc else nextPc s.dev s.pc
          cycles := if (operandValue s f).getLsbD b.toNat then s.cycles else s.cycles + 1
          draws := t.draws })
    ∧ (∃ t, exec (.btfss f b) s = .next t
      ∧ t = { s with
          pc := if (operandValue s f).getLsbD b.toNat then nextPc s.dev s.pc else s.pc
          cycles := if (operandValue s f).getLsbD b.toNat then s.cycles + 1 else s.cycles
          draws := t.draws })

/-! ### Literal and control instructions -/

/-- ADDLW and SUBLW (43_literal_control.md R136, R147): W + k and k - W, with C, DC, Z. -/
def Obligations.AddAndSubtractLiteral : Prop :=
  ∀ (s : State) (k : Byte),
    LiteralResult (.addlw k) s (BitVec.ofNat 8 (s.w.toNat + k.toNat)) (addFlags s.w k)
      ∧ LiteralResult (.sublw k) s (BitVec.ofNat 8 (256 + k.toNat - s.w.toNat)) (subFlags k s.w)

/-- ANDLW, IORLW, XORLW and MOVLW (43_literal_control.md R137, R141, R148, R142): Z alone, and no status bit for MOVLW. -/
def Obligations.LogicAndMoveOfLiteral : Prop :=
  ∀ (s : State) (k : Byte),
    LiteralResult (.andlw k) s (s.w &&& k)
        (zeroFlag (decide (s.w &&& k = 0x00#8)))
      ∧ LiteralResult (.iorlw k) s (s.w ||| k) (zeroFlag (decide (s.w = 0x00#8 ∧ k = 0x00#8)))
      ∧ LiteralResult (.xorlw k) s (s.w ^^^ k) (zeroFlag (decide (s.w = k)))
      ∧ exec (.movlw k) s = .next { s with w := k }

/-- CALL k (43_literal_control.md R138): the return address is pushed and the PC becomes PCLATH<4:3> : k, cut to `PC_BITS`;
a full stack faults. -/
def Obligations.CallPushesAndJumps : Prop :=
  ∀ (s : State) (k : BitVec 11),
    (s.stack.length < s.dev.stackDepth →
      ∃ t, exec (.call k) s = .next t
        ∧ t.pc.toNat = (s.pclath.toNat / 8 * 2048 + k.toNat) % 2 ^ s.dev.pcWidth.bits
        ∧ t = { s with stack := s.pc :: s.stack, pc := t.pc, cycles := s.cycles + 1 })
    ∧ (s.dev.stackDepth ≤ s.stack.length → exec (.call k) s = .fault .stackOverflow)

/-- GOTO k (43_literal_control.md R140): the PC becomes PCLATH<4:3> : k, cut to `PC_BITS`, and nothing else changes. -/
def Obligations.GotoJumps : Prop :=
  ∀ (s : State) (k : BitVec 11),
    ∃ t, exec (.goto k) s = .next t
      ∧ t.pc.toNat = (s.pclath.toNat / 8 * 2048 + k.toNat) % 2 ^ s.dev.pcWidth.bits
      ∧ t = { s with pc := t.pc, cycles := s.cycles + 1 }

/-- RETURN, RETLW k, RETFIE (43_literal_control.md R145, R144, R143): the PC comes from the stack; RETLW loads W; RETFIE
sets GIE; nothing else is restored. On an empty stack each faults. -/
def Obligations.ReturnsPopThePc : Prop :=
  (∀ (s : State) (a : ProgAddr) (rest : List ProgAddr) (k : Byte), s.stack = a :: rest →
    exec .ret s = .next { s with pc := a, stack := rest, cycles := s.cycles + 1 }
      ∧ exec (.retlw k) s = .next { s with w := k, pc := a, stack := rest, cycles := s.cycles + 1 }
      ∧ exec .retfie s = .next
          { s with pc := a, stack := rest, intcon := s.intcon ||| 0x80#8, cycles := s.cycles + 1 })
    ∧ ∀ (s : State) (k : Byte), s.stack = [] →
      exec .ret s = .fault .stackUnderflow ∧ exec (.retlw k) s = .fault .stackUnderflow
        ∧ exec .retfie s = .fault .stackUnderflow

/-- CLRWDT and SLEEP (43_literal_control.md R139, R146): the Watchdog count is cleared, the prescaler count too when it is
the Watchdog's; TO becomes 1 in both, PD becomes 1 and 0; SLEEP puts the device to sleep. -/
def Obligations.ClrwdtAndSleepWriteToAndPd : Prop :=
  ∀ s : State,
    exec .clrwdt s = .next { s with
        wdtCount := 0, prescaler := if s.optionReg.getLsbD 3 then 0x00#8 else s.prescaler, status := s.status ||| 0x18#8 }
      ∧ exec .sleep s = .next { s with
        wdtCount := 0, prescaler := if s.optionReg.getLsbD 3 then 0x00#8 else s.prescaler,
        status := (s.status ||| 0x10#8) &&& 0xF7#8, asleep := true }

/-! ### Registers and addresses -/

/-- 20_memory.md R56, R57: a direct address is RP1:RP0 before `f`; where that names INDF, the address is IRP before FSR (the
spec's decision D7). -/
def Obligations.OperandAddressIsDirectOrIndirect : Prop :=
  ∀ (s : State) (f : FileField),
    (fileCell s.dev (directAddr s f) ≠ .indf →
      (operandAddr s f).toNat = s.status.toNat / 32 % 4 * 128 + f.toNat)
    ∧ (fileCell s.dev (directAddr s f) = .indf →
      (operandAddr s f).toNat = s.status.toNat / 128 * 256 + s.fsr.toNat)

/-- 10_state.md R27, 20_memory.md R55: STATUS is in every bank a device has, at one offset; and on the default device the
same-named registers are one register in each bank that lists them, PCON is at 8Eh, the other offsets 05h to 09h and 0Ch to
1Fh of banks 0 and 1 are I/O registers of their own, PORTB the one at 06h, and the offsets 20h to 7Fh are general purpose
cells, distinct in the four banks. That 106h is PORTB on the default device is the model's choice between the two cells R55
offers (log 6); the other places that R55 leaves to the device are not stated. -/
def Obligations.FileMapPlacesTheRegisters : Prop :=
  (∀ (d : Device) (a : DataAddr), reservedBank d a = false → a.extractLsb' 0 7 = d.statusOffset →
      fileCell d a = .status)
    ∧ ∀ (bank : BitVec 2) (f : FileField),
      (f = 0x00#7 → fileCell Device.default (bank ++ f) = .indf)
      ∧ (f = 0x01#7 → fileCell Device.default (bank ++ f) = if bank.getLsbD 0 then .optionReg else .tmr0)
      ∧ (f = 0x02#7 → fileCell Device.default (bank ++ f) = .pcl)
      ∧ (f = 0x03#7 → fileCell Device.default (bank ++ f) = .status)
      ∧ (f = 0x04#7 → fileCell Device.default (bank ++ f) = .fsr)
      ∧ (f = 0x0A#7 → fileCell Device.default (bank ++ f) = .pclath)
      ∧ (f = 0x0B#7 → fileCell Device.default (bank ++ f) = .intcon)
      ∧ (bank.getLsbD 1 = false → (0x05 ≤ f.toNat ∧ f.toNat ≤ 0x09) ∨ (0x0C ≤ f.toNat ∧ f.toNat ≤ 0x1F) →
          bank ++ f ≠ 0x08E#9 → fileCell Device.default (bank ++ f) = .io (bank ++ f))
      ∧ (0x20 ≤ f.toNat → fileCell Device.default (bank ++ f) = .gpr (bank ++ f))
      ∧ fileCell Device.default 0x08E#9 = .pcon
      ∧ fileCell Device.default 0x006#9 = .io 0x006#9 ∧ fileCell Device.default 0x106#9 = .io 0x006#9

/-- 20_memory.md R59, R62, R66, R68, 10_state.md R25: what a read of an accessible address returns, register by register: the
stored byte, the low byte of the PC for PCL, 00h for INDF itself, and for a pin register or TMR0 the platform's value where
it gives one. A read changes nothing but the count of free values (log 8). PCON is stated apart. -/
def Obligations.ReadsOfFileRegisters : Prop :=
  ∀ (s : State) (a : DataAddr), reservedBank s.dev a = false → fileCell s.dev a ≠ .unimplemented →
    (∃ n, readFile s a = .ok (peek s a, { s with draws := n }))
      ∧ (fileCell s.dev a = .status → peek s a = s.status)
      ∧ (fileCell s.dev a = .optionReg → peek s a = s.optionReg)
      ∧ (fileCell s.dev a = .fsr → peek s a = s.fsr)
      ∧ (fileCell s.dev a = .intcon → peek s a = s.intcon)
      ∧ (fileCell s.dev a = .pclath → (peek s a).toNat = s.pclath.toNat)
      ∧ (fileCell s.dev a = .pcl → (peek s a).toNat = s.pc.toNat % 256)
      ∧ (fileCell s.dev a = .indf → peek s a = 0x00#8)
      ∧ (∀ n, fileCell s.dev a = .gpr n → peek s a = s.ram.read n.toNat)
      ∧ (fileCell s.dev a ≠ .tmr0 → (∀ n, fileCell s.dev a ≠ .io n) → peek s a = contents s (fileCell s.dev a))
      ∧ (∀ v, (fileCell s.dev a = .tmr0 ∨ ∃ n, fileCell s.dev a = .io n) → s.ioIn = some v → peek s a = v)

/-- 10_state.md R17, 20_memory.md R61: every instruction that names a file register faults by name when the address has
bit 8 set on a two-bank device, or holds no register. That offset 00h of a bank the device lacks is such an address, and
no INDF, is the model's reading (log 17). -/
def Obligations.InaccessibleRegistersFault : Prop :=
  ∀ (i : Instr) (s : State) (f : FileField), fileFieldOf i = some f →
    (s.dev.banks = .two ∧ 256 ≤ (operandAddr s f).toNat → exec i s = .fault .reservedBank)
    ∧ (¬(s.dev.banks = .two ∧ 256 ≤ (operandAddr s f).toNat) → fileCell s.dev (operandAddr s f) = .unimplemented →
      exec i s = .fault .unimplementedRegister)

/-- 10_state.md R26: a write of `v` to STATUS followed by the device logic's write of the affected bits. -/
def Obligations.WriteToStatusIsRestricted : Prop :=
  ∀ (s : State) (a : DataAddr) (v : Byte) (u : FlagUpdate), fileCell s.dev a = .status →
    ∃ t, writeFile s a v u.isNothing = .ok t ∧ t = { s with status := t.status }
      ∧ StatusAfter s (t.setFlags u) true v u

/-- 10_state.md R42, with R36, R37 and R38: a write of PCON stores PER, POR, BOR, those that exist, and nothing else; a read
returns MPEEN : 0000 : PER : POR : BOR. That a missing bit stores nothing and MPEEN goes with PER is the model's reading
(log 16). -/
def Obligations.PconReadsAndWrites : Prop :=
  ∀ (s : State) (a : DataAddr) (v : Byte) (q : Bool), fileCell s.dev a = .pcon →
    (∀ n, (peek s a).getLsbD n =
      (if n = 7 then s.dev.hasPer && s.dev.configMpeen else if n = 2 then s.dev.hasPer && s.pcon.getLsbD 2
       else if n = 1 then s.pcon.getLsbD 1 else if n = 0 then s.dev.hasBor && s.pcon.getLsbD 0 else false))
    ∧ ∃ t, writeFile s a v q = .ok t ∧ t = { s with pcon := t.pcon } ∧ peek t a = keeps s.dev .pcon v

/-- 20_memory.md R65: every write of TMR0, by whichever instruction, clears the prescaler count when PSA = 0 and leaves
OPTION_REG; an instruction that does not write TMR0 leaves TMR0 and, CLRWDT and SLEEP apart, the prescaler count. -/
def Obligations.WriteOfTmr0ClearsThePrescaler : Prop :=
  ∀ (i : Instr) (s t : State), exec i s = .next t →
    (cellWrittenBy i s = some .tmr0 →
      t.prescaler = (if s.optionReg.getLsbD 3 then s.prescaler else 0x00#8) ∧ t.optionReg = s.optionReg)
    ∧ (cellWrittenBy i s ≠ some .tmr0 → t.tmr0 = s.tmr0 ∧ (i ≠ .clrwdt → i ≠ .sleep → t.prescaler = s.prescaler))

/-- 20_memory.md R62 to R64: MOVF of an I/O register onto itself writes the pin levels back to the data latch, as an output
event, whatever the latch held. The list of events is the model's form (log 31). -/
def Obligations.MovfOfAPortCopiesThePins : Prop :=
  ∀ (s : State) (f : FileField) (n : DataAddr) (pins : Byte), s.Inv →
    fileCell s.dev (operandAddr s f) = .io n → s.ioIn = some pins →
    ∃ t, exec (.movf f .f) s = .next t ∧ contents t (.io n) = pins
      ∧ t.outputs = (operandAddr s f, pins) :: s.outputs ∧ t.zero = decide (pins = 0x00#8) ∧ t.w = s.w
      ∧ ∀ m, m ≠ n → contents t (.io m) = contents s (.io m)

/-- 20_memory.md R66, R67: a step that reads PCL at address A sees the low byte of A + 1; a step that writes W to PCL goes
on at PCLATH : W, cut to `PC_BITS`, in two cycles (a ghost count, log 23). -/
def Obligations.PclReadsAndWrites : Prop :=
  ∀ (s : State) (f : FileField), RunsInstruction s → OperandOk s f → fileCell s.dev (operandAddr s f) = .pcl →
    (s.program[s.pc.toNat]? = some (encode (.movf f .w)) →
      ∃ t, step s = .next t ∧ t.w.toNat = (s.pc.toNat + 1) % 256 ∧ t.cycles = s.cycles + 1)
    ∧ (s.program[s.pc.toNat]? = some (encode (.movwf f)) →
      ∃ t, step s = .next t ∧ t.pc.toNat = (s.pclath.toNat * 256 + s.w.toNat) % 2 ^ s.dev.pcWidth.bits
        ∧ t.cycles = s.cycles + 2)

/-- 10_state.md R33, R34, R35: the prescaler rates, by PS2:PS0 and PSA. That the Watchdog is not divided with PSA = 0 is read
from R33, which gives the one prescaler to Timer0 then. -/
def Obligations.PrescalerRates : Prop :=
  ∀ o : Byte,
    (o.getLsbD 3 = false → timer0Divisor o = 2 * 2 ^ (o.toNat % 8) ∧ wdtDivisor o = 1)
    ∧ (o.getLsbD 3 = true → timer0Divisor o = 1 ∧ wdtDivisor o = 2 ^ (o.toNat % 8))

/-! ### Rules about the whole machine -/

/-- 40_alu_common.md R100: an instruction completes exactly when its register can be accessed and the stack can take its
push or pop, for every other operand and state; and no meaning refuses. -/
def Obligations.EveryInstructionCompletes : Prop :=
  ∀ (i : Instr) (s : State), ((∃ t, exec i s = .next t) ↔ CanComplete i s) ∧ ∀ r, exec i s ≠ .refused r

/-- 10_state.md R18, R19, R26: no instruction but CLRWDT and SLEEP changes TO or PD, not even one whose destination is
STATUS. -/
def Obligations.OnlyClrwdtAndSleepWriteToPd : Prop :=
  ∀ (i : Instr) (s t : State), exec i s = .next t → i ≠ .clrwdt → i ≠ .sleep →
    t.timeOut = s.timeOut ∧ t.powerDown = s.powerDown

/-- 10_state.md R23: an instruction whose destination is not STATUS changes no status bit outside its row of the table. -/
def Obligations.StatusBitsOutsideTheRowStay : Prop :=
  ∀ (i : Instr) (s t : State), exec i s = .next t → cellWrittenBy i s ≠ some .status →
    ((statusBitsOf i).c = false → t.carry = s.carry) ∧ ((statusBitsOf i).dc = false → t.digitCarry = s.digitCarry)
      ∧ ((statusBitsOf i).z = false → t.zero = s.zero)
      ∧ ((statusBitsOf i).toPd = false → t.timeOut = s.timeOut ∧ t.powerDown = s.powerDown)
      ∧ t.status.extractLsb' 5 3 = s.status.extractLsb' 5 3

/-- 10_state.md R11: among the instructions only CALL writes the stack and only RETURN, RETLW and RETFIE read it. -/
def Obligations.OnlyCallsAndReturnsTouchTheStack : Prop :=
  ∀ (i : Instr) (s t : State), exec i s = .next t →
    t.stack = (match i with
      | .call _ => s.pc :: s.stack
      | .ret => s.stack.tail
      | .retlw _ => s.stack.tail
      | .retfie => s.stack.tail
      | _ => s.stack)

/-- 10_state.md R7, 20_memory.md R60, R68: an instruction changes W only where R7 lists it, and a file register other than
STATUS and PCL only as its destination; RETFIE's GIE is the one side effect. Program memory, the device and the
environment never change. -/
def Obligations.RegistersChangeOnlyAsDestination : Prop :=
  ∀ (i : Instr) (s t : State), exec i s = .next t →
    (writesW i = false → t.w = s.w)
      ∧ (∀ c, cellWrittenBy i s ≠ some c → c ≠ .status → c ≠ .pcl → (i = .retfie → c ≠ .intcon) →
          contents t c = contents s c)
      ∧ (cellWrittenBy i s ≠ some .intcon → t.midFlags = s.midFlags)
      ∧ t.program = s.program ∧ t.dev = s.dev ∧ t.inputs = s.inputs ∧ t.intPin = s.intPin
      ∧ t.peripheralReq = s.peripheralReq ∧ t.platformPending = s.platformPending ∧ t.ioIn = s.ioIn

/-- 40_alu_common.md R113: among the instructions, only the four that skip, CALL, GOTO, the three returns, and one whose
destination is PCL move the PC off the next instruction. -/
def Obligations.PcMovesOnlyInTheListedWays : Prop :=
  ∀ (i : Instr) (s t : State), exec i s = .next t → t.pc ≠ s.pc →
    cellWrittenBy i s = some .pcl ∨
      (match i with
        | .decfsz _ _ => t.pc = nextPc s.dev s.pc
        | .incfsz _ _ => t.pc = nextPc s.dev s.pc
        | .btfsc _ _ => t.pc = nextPc s.dev s.pc
        | .btfss _ _ => t.pc = nextPc s.dev s.pc
        | .call k => t.pc = pageTarget s k
        | .goto k => t.pc = pageTarget s k
        | .ret => s.stack.head? = some t.pc
        | .retlw _ => s.stack.head? = some t.pc
        | .retfie => s.stack.head? = some t.pc
        | _ => False)

/-- Every step keeps the invariant: the PC and the stack entries stay within `PC_BITS`, the stack within `STACK_DEPTH`, the
cells and latches canonical, the program within its space, and a sleeping device as SLEEP left it (10_state.md R9 to
R12, 20_memory.md R67, 43_literal_control.md R146, 60_exceptions.md R168, R169). The canonical form is the model's (log 18).
From every state, not only from reset. -/
def Obligations.EveryStepKeepsTheInvariant : Prop :=
  ∀ s t : State, s.Inv → step s = .next t → t.Inv

/-- The reset state has the invariant. -/
def Obligations.ResetHasTheInvariant : Prop := State.reset.Inv

/-- 20_memory.md R51, R78: no step, whatever happens in it, changes program memory or the device's parameters. -/
def Obligations.NoStepWritesProgramMemory : Prop :=
  ∀ s t : State, step s = .next t → t.program = s.program ∧ t.dev = s.dev

/-- 43_literal_control.md R138, R145, 10_state.md R10: a RETURN, executed in any state with the stack a CALL left, continues
after the CALL with the stack as it was. -/
def Obligations.ReturnUndoesCall : Prop :=
  ∀ (s t u : State) (k : BitVec 11), exec (.call k) s = .next t → u.stack = t.stack →
    ∃ v, exec .ret u = .next v ∧ v.pc = s.pc ∧ v.stack = s.stack

/-- 60_exceptions.md R155, R156, 43_literal_control.md R143: an interrupt whose handler at 0004h is RETFIE alone costs the
interrupted program nothing: two steps later the PC, the stack, W, STATUS, every file register and GIE are as they
were, apart from interrupt flags raised meanwhile. The schedule and the form of the request are the model's (log 9, log 10,
log 12). -/
def Obligations.InterruptAndRetfieAreTransparent : Prop :=
  ∀ s t : State, NoReset s → s.asleep = false → s.mustExecuteOne = false → s.gie = true →
    intPending (takeInput s) = true → s.stack.length < s.dev.stackDepth → s.program[4]? = some 0x0009#14 →
    step s = .next t → NoReset t →
    ∃ u, step t = .next u ∧ u.pc = s.pc ∧ u.stack = s.stack ∧ u.w = s.w ∧ u.status = s.status ∧ u.gie = true
      ∧ u.intcon &&& 0xF8#8 = s.intcon &&& 0xF8#8
      ∧ (∀ c, c ≠ .intcon → contents u c = contents s c)
      ∧ u.asleep = false ∧ u.mustExecuteOne = false ∧ u.wdtCount = s.wdtCount ∧ u.prescaler = s.prescaler
      ∧ u.outputs = s.outputs

/-- 40_alu_common.md R112: when BTFSC, BTFSS, DECFSZ or INCFSZ skips, the skipped word has no effect of any kind, so it may be
any word, an undefined one included: the step is the same, but for that word in program memory. It goes on two addresses
further, unless the instruction has loaded PCL (log 24). -/
def Obligations.SkippedWordHasNoEffect : Prop :=
  ∀ (s : State) (i : Instr) (f : FileField) (d : Dest) (b : BitField) (x : InstrWord), RunsInstruction s → s.Inv →
    OperandOk s f →
    ((i = .btfss f b ∧ (operandValue (fetched s) f).getLsbD b.toNat = true)
      ∨ (i = .btfsc f b ∧ (operandValue (fetched s) f).getLsbD b.toNat = false)
      ∨ (i = .incfsz f d ∧ operandValue (fetched s) f = 0xFF#8)
      ∨ (i = .decfsz f d ∧ operandValue (fetched s) f = 0x01#8)) →
    s.program[s.pc.toNat]? = some (encode i) →
    let s' := { s with program := placeWord s.program (nextPc s.dev s.pc).toNat x }
    ∃ t, step s = .next t ∧ step s' = .next { t with program := s'.program }
      ∧ (cellWrittenBy i s ≠ some .pcl → t.pc = nextPc s.dev (nextPc s.dev s.pc))
end

