-- ==== Sys2Proof/Laws/State.lean ====
section
/-! SUPPORT. What each named update of State does to each field, true by definition: no later proof unfolds an update. -/

namespace Sys2Proof.Machine

/-! ### State.setW -/

@[simp] theorem State.dev_setW (s : State) (v : Byte) : (s.setW v).dev = s.dev := rfl
@[simp] theorem State.program_setW (s : State) (v : Byte) : (s.setW v).program = s.program := rfl
@[simp] theorem State.w_setW (s : State) (v : Byte) : (s.setW v).w = v := rfl
@[simp] theorem State.status_setW (s : State) (v : Byte) : (s.setW v).status = s.status := rfl
@[simp] theorem State.optionReg_setW (s : State) (v : Byte) : (s.setW v).optionReg = s.optionReg := rfl
@[simp] theorem State.pcon_setW (s : State) (v : Byte) : (s.setW v).pcon = s.pcon := rfl
@[simp] theorem State.fsr_setW (s : State) (v : Byte) : (s.setW v).fsr = s.fsr := rfl
@[simp] theorem State.pclath_setW (s : State) (v : Byte) : (s.setW v).pclath = s.pclath := rfl
@[simp] theorem State.intcon_setW (s : State) (v : Byte) : (s.setW v).intcon = s.intcon := rfl
@[simp] theorem State.tmr0_setW (s : State) (v : Byte) : (s.setW v).tmr0 = s.tmr0 := rfl
@[simp] theorem State.ram_setW (s : State) (v : Byte) : (s.setW v).ram = s.ram := rfl
@[simp] theorem State.latches_setW (s : State) (v : Byte) : (s.setW v).latches = s.latches := rfl
@[simp] theorem State.outputs_setW (s : State) (v : Byte) : (s.setW v).outputs = s.outputs := rfl
@[simp] theorem State.pc_setW (s : State) (v : Byte) : (s.setW v).pc = s.pc := rfl
@[simp] theorem State.stack_setW (s : State) (v : Byte) : (s.setW v).stack = s.stack := rfl
@[simp] theorem State.wdtCount_setW (s : State) (v : Byte) : (s.setW v).wdtCount = s.wdtCount := rfl
@[simp] theorem State.prescaler_setW (s : State) (v : Byte) : (s.setW v).prescaler = s.prescaler := rfl
@[simp] theorem State.asleep_setW (s : State) (v : Byte) : (s.setW v).asleep = s.asleep := rfl
@[simp] theorem State.mustExecuteOne_setW (s : State) (v : Byte) : (s.setW v).mustExecuteOne = s.mustExecuteOne := rfl
@[simp] theorem State.intPin_setW (s : State) (v : Byte) : (s.setW v).intPin = s.intPin := rfl
@[simp] theorem State.peripheralReq_setW (s : State) (v : Byte) : (s.setW v).peripheralReq = s.peripheralReq := rfl
@[simp] theorem State.midFlags_setW (s : State) (v : Byte) : (s.setW v).midFlags = s.midFlags := rfl
@[simp] theorem State.platformPending_setW (s : State) (v : Byte) : (s.setW v).platformPending = s.platformPending := rfl
@[simp] theorem State.ioIn_setW (s : State) (v : Byte) : (s.setW v).ioIn = s.ioIn := rfl
@[simp] theorem State.inputs_setW (s : State) (v : Byte) : (s.setW v).inputs = s.inputs := rfl
@[simp] theorem State.draws_setW (s : State) (v : Byte) : (s.setW v).draws = s.draws := rfl
@[simp] theorem State.cycles_setW (s : State) (v : Byte) : (s.setW v).cycles = s.cycles := rfl

/-! ### State.setStatus -/

@[simp] theorem State.dev_setStatus (s : State) (v : Byte) : (s.setStatus v).dev = s.dev := rfl
@[simp] theorem State.program_setStatus (s : State) (v : Byte) : (s.setStatus v).program = s.program := rfl
@[simp] theorem State.w_setStatus (s : State) (v : Byte) : (s.setStatus v).w = s.w := rfl
@[simp] theorem State.status_setStatus (s : State) (v : Byte) : (s.setStatus v).status = v := rfl
@[simp] theorem State.optionReg_setStatus (s : State) (v : Byte) : (s.setStatus v).optionReg = s.optionReg := rfl
@[simp] theorem State.pcon_setStatus (s : State) (v : Byte) : (s.setStatus v).pcon = s.pcon := rfl
@[simp] theorem State.fsr_setStatus (s : State) (v : Byte) : (s.setStatus v).fsr = s.fsr := rfl
@[simp] theorem State.pclath_setStatus (s : State) (v : Byte) : (s.setStatus v).pclath = s.pclath := rfl
@[simp] theorem State.intcon_setStatus (s : State) (v : Byte) : (s.setStatus v).intcon = s.intcon := rfl
@[simp] theorem State.tmr0_setStatus (s : State) (v : Byte) : (s.setStatus v).tmr0 = s.tmr0 := rfl
@[simp] theorem State.ram_setStatus (s : State) (v : Byte) : (s.setStatus v).ram = s.ram := rfl
@[simp] theorem State.latches_setStatus (s : State) (v : Byte) : (s.setStatus v).latches = s.latches := rfl
@[simp] theorem State.outputs_setStatus (s : State) (v : Byte) : (s.setStatus v).outputs = s.outputs := rfl
@[simp] theorem State.pc_setStatus (s : State) (v : Byte) : (s.setStatus v).pc = s.pc := rfl
@[simp] theorem State.stack_setStatus (s : State) (v : Byte) : (s.setStatus v).stack = s.stack := rfl
@[simp] theorem State.wdtCount_setStatus (s : State) (v : Byte) : (s.setStatus v).wdtCount = s.wdtCount := rfl
@[simp] theorem State.prescaler_setStatus (s : State) (v : Byte) : (s.setStatus v).prescaler = s.prescaler := rfl
@[simp] theorem State.asleep_setStatus (s : State) (v : Byte) : (s.setStatus v).asleep = s.asleep := rfl
@[simp] theorem State.mustExecuteOne_setStatus (s : State) (v : Byte) : (s.setStatus v).mustExecuteOne = s.mustExecuteOne := rfl
@[simp] theorem State.intPin_setStatus (s : State) (v : Byte) : (s.setStatus v).intPin = s.intPin := rfl
@[simp] theorem State.peripheralReq_setStatus (s : State) (v : Byte) : (s.setStatus v).peripheralReq = s.peripheralReq := rfl
@[simp] theorem State.midFlags_setStatus (s : State) (v : Byte) : (s.setStatus v).midFlags = s.midFlags := rfl
@[simp] theorem State.platformPending_setStatus (s : State) (v : Byte) : (s.setStatus v).platformPending = s.platformPending := rfl
@[simp] theorem State.ioIn_setStatus (s : State) (v : Byte) : (s.setStatus v).ioIn = s.ioIn := rfl
@[simp] theorem State.inputs_setStatus (s : State) (v : Byte) : (s.setStatus v).inputs = s.inputs := rfl
@[simp] theorem State.draws_setStatus (s : State) (v : Byte) : (s.setStatus v).draws = s.draws := rfl
@[simp] theorem State.cycles_setStatus (s : State) (v : Byte) : (s.setStatus v).cycles = s.cycles := rfl

/-! ### State.setFlags -/

@[simp] theorem State.dev_setFlags (s : State) (u : FlagUpdate) : (s.setFlags u).dev = s.dev := rfl
@[simp] theorem State.program_setFlags (s : State) (u : FlagUpdate) : (s.setFlags u).program = s.program := rfl
@[simp] theorem State.w_setFlags (s : State) (u : FlagUpdate) : (s.setFlags u).w = s.w := rfl
@[simp] theorem State.status_setFlags (s : State) (u : FlagUpdate) : (s.setFlags u).status = updateFlags s.status u := rfl
@[simp] theorem State.optionReg_setFlags (s : State) (u : FlagUpdate) : (s.setFlags u).optionReg = s.optionReg := rfl
@[simp] theorem State.pcon_setFlags (s : State) (u : FlagUpdate) : (s.setFlags u).pcon = s.pcon := rfl
@[simp] theorem State.fsr_setFlags (s : State) (u : FlagUpdate) : (s.setFlags u).fsr = s.fsr := rfl
@[simp] theorem State.pclath_setFlags (s : State) (u : FlagUpdate) : (s.setFlags u).pclath = s.pclath := rfl
@[simp] theorem State.intcon_setFlags (s : State) (u : FlagUpdate) : (s.setFlags u).intcon = s.intcon := rfl
@[simp] theorem State.tmr0_setFlags (s : State) (u : FlagUpdate) : (s.setFlags u).tmr0 = s.tmr0 := rfl
@[simp] theorem State.ram_setFlags (s : State) (u : FlagUpdate) : (s.setFlags u).ram = s.ram := rfl
@[simp] theorem State.latches_setFlags (s : State) (u : FlagUpdate) : (s.setFlags u).latches = s.latches := rfl
@[simp] theorem State.outputs_setFlags (s : State) (u : FlagUpdate) : (s.setFlags u).outputs = s.outputs := rfl
@[simp] theorem State.pc_setFlags (s : State) (u : FlagUpdate) : (s.setFlags u).pc = s.pc := rfl
@[simp] theorem State.stack_setFlags (s : State) (u : FlagUpdate) : (s.setFlags u).stack = s.stack := rfl
@[simp] theorem State.wdtCount_setFlags (s : State) (u : FlagUpdate) : (s.setFlags u).wdtCount = s.wdtCount := rfl
@[simp] theorem State.prescaler_setFlags (s : State) (u : FlagUpdate) : (s.setFlags u).prescaler = s.prescaler := rfl
@[simp] theorem State.asleep_setFlags (s : State) (u : FlagUpdate) : (s.setFlags u).asleep = s.asleep := rfl
@[simp] theorem State.mustExecuteOne_setFlags (s : State) (u : FlagUpdate) : (s.setFlags u).mustExecuteOne = s.mustExecuteOne := rfl
@[simp] theorem State.intPin_setFlags (s : State) (u : FlagUpdate) : (s.setFlags u).intPin = s.intPin := rfl
@[simp] theorem State.peripheralReq_setFlags (s : State) (u : FlagUpdate) : (s.setFlags u).peripheralReq = s.peripheralReq := rfl
@[simp] theorem State.midFlags_setFlags (s : State) (u : FlagUpdate) : (s.setFlags u).midFlags = s.midFlags := rfl
@[simp] theorem State.platformPending_setFlags (s : State) (u : FlagUpdate) : (s.setFlags u).platformPending = s.platformPending := rfl
@[simp] theorem State.ioIn_setFlags (s : State) (u : FlagUpdate) : (s.setFlags u).ioIn = s.ioIn := rfl
@[simp] theorem State.inputs_setFlags (s : State) (u : FlagUpdate) : (s.setFlags u).inputs = s.inputs := rfl
@[simp] theorem State.draws_setFlags (s : State) (u : FlagUpdate) : (s.setFlags u).draws = s.draws := rfl
@[simp] theorem State.cycles_setFlags (s : State) (u : FlagUpdate) : (s.setFlags u).cycles = s.cycles := rfl

/-! ### State.loadPc -/

@[simp] theorem State.dev_loadPc (s : State) (a : ProgAddr) : (s.loadPc a).dev = s.dev := rfl
@[simp] theorem State.program_loadPc (s : State) (a : ProgAddr) : (s.loadPc a).program = s.program := rfl
@[simp] theorem State.w_loadPc (s : State) (a : ProgAddr) : (s.loadPc a).w = s.w := rfl
@[simp] theorem State.status_loadPc (s : State) (a : ProgAddr) : (s.loadPc a).status = s.status := rfl
@[simp] theorem State.optionReg_loadPc (s : State) (a : ProgAddr) : (s.loadPc a).optionReg = s.optionReg := rfl
@[simp] theorem State.pcon_loadPc (s : State) (a : ProgAddr) : (s.loadPc a).pcon = s.pcon := rfl
@[simp] theorem State.fsr_loadPc (s : State) (a : ProgAddr) : (s.loadPc a).fsr = s.fsr := rfl
@[simp] theorem State.pclath_loadPc (s : State) (a : ProgAddr) : (s.loadPc a).pclath = s.pclath := rfl
@[simp] theorem State.intcon_loadPc (s : State) (a : ProgAddr) : (s.loadPc a).intcon = s.intcon := rfl
@[simp] theorem State.tmr0_loadPc (s : State) (a : ProgAddr) : (s.loadPc a).tmr0 = s.tmr0 := rfl
@[simp] theorem State.ram_loadPc (s : State) (a : ProgAddr) : (s.loadPc a).ram = s.ram := rfl
@[simp] theorem State.latches_loadPc (s : State) (a : ProgAddr) : (s.loadPc a).latches = s.latches := rfl
@[simp] theorem State.outputs_loadPc (s : State) (a : ProgAddr) : (s.loadPc a).outputs = s.outputs := rfl
@[simp] theorem State.pc_loadPc (s : State) (a : ProgAddr) : (s.loadPc a).pc = a := rfl
@[simp] theorem State.stack_loadPc (s : State) (a : ProgAddr) : (s.loadPc a).stack = s.stack := rfl
@[simp] theorem State.wdtCount_loadPc (s : State) (a : ProgAddr) : (s.loadPc a).wdtCount = s.wdtCount := rfl
@[simp] theorem State.prescaler_loadPc (s : State) (a : ProgAddr) : (s.loadPc a).prescaler = s.prescaler := rfl
@[simp] theorem State.asleep_loadPc (s : State) (a : ProgAddr) : (s.loadPc a).asleep = s.asleep := rfl
@[simp] theorem State.mustExecuteOne_loadPc (s : State) (a : ProgAddr) : (s.loadPc a).mustExecuteOne = s.mustExecuteOne := rfl
@[simp] theorem State.intPin_loadPc (s : State) (a : ProgAddr) : (s.loadPc a).intPin = s.intPin := rfl
@[simp] theorem State.peripheralReq_loadPc (s : State) (a : ProgAddr) : (s.loadPc a).peripheralReq = s.peripheralReq := rfl
@[simp] theorem State.midFlags_loadPc (s : State) (a : ProgAddr) : (s.loadPc a).midFlags = s.midFlags := rfl
@[simp] theorem State.platformPending_loadPc (s : State) (a : ProgAddr) : (s.loadPc a).platformPending = s.platformPending := rfl
@[simp] theorem State.ioIn_loadPc (s : State) (a : ProgAddr) : (s.loadPc a).ioIn = s.ioIn := rfl
@[simp] theorem State.inputs_loadPc (s : State) (a : ProgAddr) : (s.loadPc a).inputs = s.inputs := rfl
@[simp] theorem State.draws_loadPc (s : State) (a : ProgAddr) : (s.loadPc a).draws = s.draws := rfl
@[simp] theorem State.cycles_loadPc (s : State) (a : ProgAddr) : (s.loadPc a).cycles = s.cycles + 1 := rfl

/-! ### State.skipIf -/

@[simp] theorem State.dev_skipIf (s : State) (b : Bool) : (s.skipIf b).dev = s.dev := rfl
@[simp] theorem State.program_skipIf (s : State) (b : Bool) : (s.skipIf b).program = s.program := rfl
@[simp] theorem State.w_skipIf (s : State) (b : Bool) : (s.skipIf b).w = s.w := rfl
@[simp] theorem State.status_skipIf (s : State) (b : Bool) : (s.skipIf b).status = s.status := rfl
@[simp] theorem State.optionReg_skipIf (s : State) (b : Bool) : (s.skipIf b).optionReg = s.optionReg := rfl
@[simp] theorem State.pcon_skipIf (s : State) (b : Bool) : (s.skipIf b).pcon = s.pcon := rfl
@[simp] theorem State.fsr_skipIf (s : State) (b : Bool) : (s.skipIf b).fsr = s.fsr := rfl
@[simp] theorem State.pclath_skipIf (s : State) (b : Bool) : (s.skipIf b).pclath = s.pclath := rfl
@[simp] theorem State.intcon_skipIf (s : State) (b : Bool) : (s.skipIf b).intcon = s.intcon := rfl
@[simp] theorem State.tmr0_skipIf (s : State) (b : Bool) : (s.skipIf b).tmr0 = s.tmr0 := rfl
@[simp] theorem State.ram_skipIf (s : State) (b : Bool) : (s.skipIf b).ram = s.ram := rfl
@[simp] theorem State.latches_skipIf (s : State) (b : Bool) : (s.skipIf b).latches = s.latches := rfl
@[simp] theorem State.outputs_skipIf (s : State) (b : Bool) : (s.skipIf b).outputs = s.outputs := rfl
@[simp] theorem State.pc_skipIf (s : State) (b : Bool) : (s.skipIf b).pc = (if b then nextPc s.dev s.pc else s.pc) := rfl
@[simp] theorem State.stack_skipIf (s : State) (b : Bool) : (s.skipIf b).stack = s.stack := rfl
@[simp] theorem State.wdtCount_skipIf (s : State) (b : Bool) : (s.skipIf b).wdtCount = s.wdtCount := rfl
@[simp] theorem State.prescaler_skipIf (s : State) (b : Bool) : (s.skipIf b).prescaler = s.prescaler := rfl
@[simp] theorem State.asleep_skipIf (s : State) (b : Bool) : (s.skipIf b).asleep = s.asleep := rfl
@[simp] theorem State.mustExecuteOne_skipIf (s : State) (b : Bool) : (s.skipIf b).mustExecuteOne = s.mustExecuteOne := rfl
@[simp] theorem State.intPin_skipIf (s : State) (b : Bool) : (s.skipIf b).intPin = s.intPin := rfl
@[simp] theorem State.peripheralReq_skipIf (s : State) (b : Bool) : (s.skipIf b).peripheralReq = s.peripheralReq := rfl
@[simp] theorem State.midFlags_skipIf (s : State) (b : Bool) : (s.skipIf b).midFlags = s.midFlags := rfl
@[simp] theorem State.platformPending_skipIf (s : State) (b : Bool) : (s.skipIf b).platformPending = s.platformPending := rfl
@[simp] theorem State.ioIn_skipIf (s : State) (b : Bool) : (s.skipIf b).ioIn = s.ioIn := rfl
@[simp] theorem State.inputs_skipIf (s : State) (b : Bool) : (s.skipIf b).inputs = s.inputs := rfl
@[simp] theorem State.draws_skipIf (s : State) (b : Bool) : (s.skipIf b).draws = s.draws := rfl
@[simp] theorem State.cycles_skipIf (s : State) (b : Bool) : (s.skipIf b).cycles = (if b then s.cycles + 1 else s.cycles) := rfl

/-! ### State.atMostOneMoreCycle -/

@[simp] theorem State.dev_atMostOneMoreCycle (s : State) (n : Nat) : (s.atMostOneMoreCycle n).dev = s.dev := rfl
@[simp] theorem State.program_atMostOneMoreCycle (s : State) (n : Nat) : (s.atMostOneMoreCycle n).program = s.program := rfl
@[simp] theorem State.w_atMostOneMoreCycle (s : State) (n : Nat) : (s.atMostOneMoreCycle n).w = s.w := rfl
@[simp] theorem State.status_atMostOneMoreCycle (s : State) (n : Nat) : (s.atMostOneMoreCycle n).status = s.status := rfl
@[simp] theorem State.optionReg_atMostOneMoreCycle (s : State) (n : Nat) : (s.atMostOneMoreCycle n).optionReg = s.optionReg := rfl
@[simp] theorem State.pcon_atMostOneMoreCycle (s : State) (n : Nat) : (s.atMostOneMoreCycle n).pcon = s.pcon := rfl
@[simp] theorem State.fsr_atMostOneMoreCycle (s : State) (n : Nat) : (s.atMostOneMoreCycle n).fsr = s.fsr := rfl
@[simp] theorem State.pclath_atMostOneMoreCycle (s : State) (n : Nat) : (s.atMostOneMoreCycle n).pclath = s.pclath := rfl
@[simp] theorem State.intcon_atMostOneMoreCycle (s : State) (n : Nat) : (s.atMostOneMoreCycle n).intcon = s.intcon := rfl
@[simp] theorem State.tmr0_atMostOneMoreCycle (s : State) (n : Nat) : (s.atMostOneMoreCycle n).tmr0 = s.tmr0 := rfl
@[simp] theorem State.ram_atMostOneMoreCycle (s : State) (n : Nat) : (s.atMostOneMoreCycle n).ram = s.ram := rfl
@[simp] theorem State.latches_atMostOneMoreCycle (s : State) (n : Nat) : (s.atMostOneMoreCycle n).latches = s.latches := rfl
@[simp] theorem State.outputs_atMostOneMoreCycle (s : State) (n : Nat) : (s.atMostOneMoreCycle n).outputs = s.outputs := rfl
@[simp] theorem State.pc_atMostOneMoreCycle (s : State) (n : Nat) : (s.atMostOneMoreCycle n).pc = s.pc := rfl
@[simp] theorem State.stack_atMostOneMoreCycle (s : State) (n : Nat) : (s.atMostOneMoreCycle n).stack = s.stack := rfl
@[simp] theorem State.wdtCount_atMostOneMoreCycle (s : State) (n : Nat) : (s.atMostOneMoreCycle n).wdtCount = s.wdtCount := rfl
@[simp] theorem State.prescaler_atMostOneMoreCycle (s : State) (n : Nat) : (s.atMostOneMoreCycle n).prescaler = s.prescaler := rfl
@[simp] theorem State.asleep_atMostOneMoreCycle (s : State) (n : Nat) : (s.atMostOneMoreCycle n).asleep = s.asleep := rfl
@[simp] theorem State.mustExecuteOne_atMostOneMoreCycle (s : State) (n : Nat) : (s.atMostOneMoreCycle n).mustExecuteOne = s.mustExecuteOne := rfl
@[simp] theorem State.intPin_atMostOneMoreCycle (s : State) (n : Nat) : (s.atMostOneMoreCycle n).intPin = s.intPin := rfl
@[simp] theorem State.peripheralReq_atMostOneMoreCycle (s : State) (n : Nat) : (s.atMostOneMoreCycle n).peripheralReq = s.peripheralReq := rfl
@[simp] theorem State.midFlags_atMostOneMoreCycle (s : State) (n : Nat) : (s.atMostOneMoreCycle n).midFlags = s.midFlags := rfl
@[simp] theorem State.platformPending_atMostOneMoreCycle (s : State) (n : Nat) : (s.atMostOneMoreCycle n).platformPending = s.platformPending := rfl
@[simp] theorem State.ioIn_atMostOneMoreCycle (s : State) (n : Nat) : (s.atMostOneMoreCycle n).ioIn = s.ioIn := rfl
@[simp] theorem State.inputs_atMostOneMoreCycle (s : State) (n : Nat) : (s.atMostOneMoreCycle n).inputs = s.inputs := rfl
@[simp] theorem State.draws_atMostOneMoreCycle (s : State) (n : Nat) : (s.atMostOneMoreCycle n).draws = s.draws := rfl
@[simp] theorem State.cycles_atMostOneMoreCycle (s : State) (n : Nat) : (s.atMostOneMoreCycle n).cycles = min s.cycles (n + 1) := rfl

/-! ### State.clearMustExecute -/

@[simp] theorem State.dev_clearMustExecute (s : State) : s.clearMustExecute.dev = s.dev := rfl
@[simp] theorem State.program_clearMustExecute (s : State) : s.clearMustExecute.program = s.program := rfl
@[simp] theorem State.w_clearMustExecute (s : State) : s.clearMustExecute.w = s.w := rfl
@[simp] theorem State.status_clearMustExecute (s : State) : s.clearMustExecute.status = s.status := rfl
@[simp] theorem State.optionReg_clearMustExecute (s : State) : s.clearMustExecute.optionReg = s.optionReg := rfl
@[simp] theorem State.pcon_clearMustExecute (s : State) : s.clearMustExecute.pcon = s.pcon := rfl
@[simp] theorem State.fsr_clearMustExecute (s : State) : s.clearMustExecute.fsr = s.fsr := rfl
@[simp] theorem State.pclath_clearMustExecute (s : State) : s.clearMustExecute.pclath = s.pclath := rfl
@[simp] theorem State.intcon_clearMustExecute (s : State) : s.clearMustExecute.intcon = s.intcon := rfl
@[simp] theorem State.tmr0_clearMustExecute (s : State) : s.clearMustExecute.tmr0 = s.tmr0 := rfl
@[simp] theorem State.ram_clearMustExecute (s : State) : s.clearMustExecute.ram = s.ram := rfl
@[simp] theorem State.latches_clearMustExecute (s : State) : s.clearMustExecute.latches = s.latches := rfl
@[simp] theorem State.outputs_clearMustExecute (s : State) : s.clearMustExecute.outputs = s.outputs := rfl
@[simp] theorem State.pc_clearMustExecute (s : State) : s.clearMustExecute.pc = s.pc := rfl
@[simp] theorem State.stack_clearMustExecute (s : State) : s.clearMustExecute.stack = s.stack := rfl
@[simp] theorem State.wdtCount_clearMustExecute (s : State) : s.clearMustExecute.wdtCount = s.wdtCount := rfl
@[simp] theorem State.prescaler_clearMustExecute (s : State) : s.clearMustExecute.prescaler = s.prescaler := rfl
@[simp] theorem State.asleep_clearMustExecute (s : State) : s.clearMustExecute.asleep = s.asleep := rfl
@[simp] theorem State.mustExecuteOne_clearMustExecute (s : State) : s.clearMustExecute.mustExecuteOne = false := rfl
@[simp] theorem State.intPin_clearMustExecute (s : State) : s.clearMustExecute.intPin = s.intPin := rfl
@[simp] theorem State.peripheralReq_clearMustExecute (s : State) : s.clearMustExecute.peripheralReq = s.peripheralReq := rfl
@[simp] theorem State.midFlags_clearMustExecute (s : State) : s.clearMustExecute.midFlags = s.midFlags := rfl
@[simp] theorem State.platformPending_clearMustExecute (s : State) : s.clearMustExecute.platformPending = s.platformPending := rfl
@[simp] theorem State.ioIn_clearMustExecute (s : State) : s.clearMustExecute.ioIn = s.ioIn := rfl
@[simp] theorem State.inputs_clearMustExecute (s : State) : s.clearMustExecute.inputs = s.inputs := rfl
@[simp] theorem State.draws_clearMustExecute (s : State) : s.clearMustExecute.draws = s.draws := rfl
@[simp] theorem State.cycles_clearMustExecute (s : State) : s.clearMustExecute.cycles = s.cycles := rfl

/-! ### State.clearWdt -/

@[simp] theorem State.dev_clearWdt (s : State) : s.clearWdt.dev = s.dev := rfl
@[simp] theorem State.program_clearWdt (s : State) : s.clearWdt.program = s.program := rfl
@[simp] theorem State.w_clearWdt (s : State) : s.clearWdt.w = s.w := rfl
@[simp] theorem State.status_clearWdt (s : State) : s.clearWdt.status = s.status := rfl
@[simp] theorem State.optionReg_clearWdt (s : State) : s.clearWdt.optionReg = s.optionReg := rfl
@[simp] theorem State.pcon_clearWdt (s : State) : s.clearWdt.pcon = s.pcon := rfl
@[simp] theorem State.fsr_clearWdt (s : State) : s.clearWdt.fsr = s.fsr := rfl
@[simp] theorem State.pclath_clearWdt (s : State) : s.clearWdt.pclath = s.pclath := rfl
@[simp] theorem State.intcon_clearWdt (s : State) : s.clearWdt.intcon = s.intcon := rfl
@[simp] theorem State.tmr0_clearWdt (s : State) : s.clearWdt.tmr0 = s.tmr0 := rfl
@[simp] theorem State.ram_clearWdt (s : State) : s.clearWdt.ram = s.ram := rfl
@[simp] theorem State.latches_clearWdt (s : State) : s.clearWdt.latches = s.latches := rfl
@[simp] theorem State.outputs_clearWdt (s : State) : s.clearWdt.outputs = s.outputs := rfl
@[simp] theorem State.pc_clearWdt (s : State) : s.clearWdt.pc = s.pc := rfl
@[simp] theorem State.stack_clearWdt (s : State) : s.clearWdt.stack = s.stack := rfl
@[simp] theorem State.wdtCount_clearWdt (s : State) : s.clearWdt.wdtCount = 0 := rfl
@[simp] theorem State.prescaler_clearWdt (s : State) : s.clearWdt.prescaler = (if prescalerToWdt s.optionReg then 0#8 else s.prescaler) := rfl
@[simp] theorem State.asleep_clearWdt (s : State) : s.clearWdt.asleep = s.asleep := rfl
@[simp] theorem State.mustExecuteOne_clearWdt (s : State) : s.clearWdt.mustExecuteOne = s.mustExecuteOne := rfl
@[simp] theorem State.intPin_clearWdt (s : State) : s.clearWdt.intPin = s.intPin := rfl
@[simp] theorem State.peripheralReq_clearWdt (s : State) : s.clearWdt.peripheralReq = s.peripheralReq := rfl
@[simp] theorem State.midFlags_clearWdt (s : State) : s.clearWdt.midFlags = s.midFlags := rfl
@[simp] theorem State.platformPending_clearWdt (s : State) : s.clearWdt.platformPending = s.platformPending := rfl
@[simp] theorem State.ioIn_clearWdt (s : State) : s.clearWdt.ioIn = s.ioIn := rfl
@[simp] theorem State.inputs_clearWdt (s : State) : s.clearWdt.inputs = s.inputs := rfl
@[simp] theorem State.draws_clearWdt (s : State) : s.clearWdt.draws = s.draws := rfl
@[simp] theorem State.cycles_clearWdt (s : State) : s.clearWdt.cycles = s.cycles := rfl

/-! ### afterRead -/

@[simp] theorem State.dev_afterRead (s : State) (a : DataAddr) : (afterRead s a).dev = s.dev := rfl
@[simp] theorem State.program_afterRead (s : State) (a : DataAddr) : (afterRead s a).program = s.program := rfl
@[simp] theorem State.w_afterRead (s : State) (a : DataAddr) : (afterRead s a).w = s.w := rfl
@[simp] theorem State.status_afterRead (s : State) (a : DataAddr) : (afterRead s a).status = s.status := rfl
@[simp] theorem State.optionReg_afterRead (s : State) (a : DataAddr) : (afterRead s a).optionReg = s.optionReg := rfl
@[simp] theorem State.pcon_afterRead (s : State) (a : DataAddr) : (afterRead s a).pcon = s.pcon := rfl
@[simp] theorem State.fsr_afterRead (s : State) (a : DataAddr) : (afterRead s a).fsr = s.fsr := rfl
@[simp] theorem State.pclath_afterRead (s : State) (a : DataAddr) : (afterRead s a).pclath = s.pclath := rfl
@[simp] theorem State.intcon_afterRead (s : State) (a : DataAddr) : (afterRead s a).intcon = s.intcon := rfl
@[simp] theorem State.tmr0_afterRead (s : State) (a : DataAddr) : (afterRead s a).tmr0 = s.tmr0 := rfl
@[simp] theorem State.ram_afterRead (s : State) (a : DataAddr) : (afterRead s a).ram = s.ram := rfl
@[simp] theorem State.latches_afterRead (s : State) (a : DataAddr) : (afterRead s a).latches = s.latches := rfl
@[simp] theorem State.outputs_afterRead (s : State) (a : DataAddr) : (afterRead s a).outputs = s.outputs := rfl
@[simp] theorem State.pc_afterRead (s : State) (a : DataAddr) : (afterRead s a).pc = s.pc := rfl
@[simp] theorem State.stack_afterRead (s : State) (a : DataAddr) : (afterRead s a).stack = s.stack := rfl
@[simp] theorem State.wdtCount_afterRead (s : State) (a : DataAddr) : (afterRead s a).wdtCount = s.wdtCount := rfl
@[simp] theorem State.prescaler_afterRead (s : State) (a : DataAddr) : (afterRead s a).prescaler = s.prescaler := rfl
@[simp] theorem State.asleep_afterRead (s : State) (a : DataAddr) : (afterRead s a).asleep = s.asleep := rfl
@[simp] theorem State.mustExecuteOne_afterRead (s : State) (a : DataAddr) : (afterRead s a).mustExecuteOne = s.mustExecuteOne := rfl
@[simp] theorem State.intPin_afterRead (s : State) (a : DataAddr) : (afterRead s a).intPin = s.intPin := rfl
@[simp] theorem State.peripheralReq_afterRead (s : State) (a : DataAddr) : (afterRead s a).peripheralReq = s.peripheralReq := rfl
@[simp] theorem State.midFlags_afterRead (s : State) (a : DataAddr) : (afterRead s a).midFlags = s.midFlags := rfl
@[simp] theorem State.platformPending_afterRead (s : State) (a : DataAddr) : (afterRead s a).platformPending = s.platformPending := rfl
@[simp] theorem State.ioIn_afterRead (s : State) (a : DataAddr) : (afterRead s a).ioIn = s.ioIn := rfl
@[simp] theorem State.inputs_afterRead (s : State) (a : DataAddr) : (afterRead s a).inputs = s.inputs := rfl
@[simp] theorem State.draws_afterRead (s : State) (a : DataAddr) : (afterRead s a).draws = (if asksOracle (fileCell s.dev a) then s.draws + 1 else s.draws) := rfl
@[simp] theorem State.cycles_afterRead (s : State) (a : DataAddr) : (afterRead s a).cycles = s.cycles := rfl

/-! ### writeTmr0 -/

@[simp] theorem State.dev_writeTmr0 (s : State) (v : Byte) : (writeTmr0 s v).dev = s.dev := rfl
@[simp] theorem State.program_writeTmr0 (s : State) (v : Byte) : (writeTmr0 s v).program = s.program := rfl
@[simp] theorem State.w_writeTmr0 (s : State) (v : Byte) : (writeTmr0 s v).w = s.w := rfl
@[simp] theorem State.status_writeTmr0 (s : State) (v : Byte) : (writeTmr0 s v).status = s.status := rfl
@[simp] theorem State.optionReg_writeTmr0 (s : State) (v : Byte) : (writeTmr0 s v).optionReg = s.optionReg := rfl
@[simp] theorem State.pcon_writeTmr0 (s : State) (v : Byte) : (writeTmr0 s v).pcon = s.pcon := rfl
@[simp] theorem State.fsr_writeTmr0 (s : State) (v : Byte) : (writeTmr0 s v).fsr = s.fsr := rfl
@[simp] theorem State.pclath_writeTmr0 (s : State) (v : Byte) : (writeTmr0 s v).pclath = s.pclath := rfl
@[simp] theorem State.intcon_writeTmr0 (s : State) (v : Byte) : (writeTmr0 s v).intcon = s.intcon := rfl
@[simp] theorem State.tmr0_writeTmr0 (s : State) (v : Byte) : (writeTmr0 s v).tmr0 = v := rfl
@[simp] theorem State.ram_writeTmr0 (s : State) (v : Byte) : (writeTmr0 s v).ram = s.ram := rfl
@[simp] theorem State.latches_writeTmr0 (s : State) (v : Byte) : (writeTmr0 s v).latches = s.latches := rfl
@[simp] theorem State.outputs_writeTmr0 (s : State) (v : Byte) : (writeTmr0 s v).outputs = s.outputs := rfl
@[simp] theorem State.pc_writeTmr0 (s : State) (v : Byte) : (writeTmr0 s v).pc = s.pc := rfl
@[simp] theorem State.stack_writeTmr0 (s : State) (v : Byte) : (writeTmr0 s v).stack = s.stack := rfl
@[simp] theorem State.wdtCount_writeTmr0 (s : State) (v : Byte) : (writeTmr0 s v).wdtCount = s.wdtCount := rfl
@[simp] theorem State.prescaler_writeTmr0 (s : State) (v : Byte) : (writeTmr0 s v).prescaler = (if prescalerToWdt s.optionReg then s.prescaler else 0#8) := rfl
@[simp] theorem State.asleep_writeTmr0 (s : State) (v : Byte) : (writeTmr0 s v).asleep = s.asleep := rfl
@[simp] theorem State.mustExecuteOne_writeTmr0 (s : State) (v : Byte) : (writeTmr0 s v).mustExecuteOne = s.mustExecuteOne := rfl
@[simp] theorem State.intPin_writeTmr0 (s : State) (v : Byte) : (writeTmr0 s v).intPin = s.intPin := rfl
@[simp] theorem State.peripheralReq_writeTmr0 (s : State) (v : Byte) : (writeTmr0 s v).peripheralReq = s.peripheralReq := rfl
@[simp] theorem State.midFlags_writeTmr0 (s : State) (v : Byte) : (writeTmr0 s v).midFlags = s.midFlags := rfl
@[simp] theorem State.platformPending_writeTmr0 (s : State) (v : Byte) : (writeTmr0 s v).platformPending = s.platformPending := rfl
@[simp] theorem State.ioIn_writeTmr0 (s : State) (v : Byte) : (writeTmr0 s v).ioIn = s.ioIn := rfl
@[simp] theorem State.inputs_writeTmr0 (s : State) (v : Byte) : (writeTmr0 s v).inputs = s.inputs := rfl
@[simp] theorem State.draws_writeTmr0 (s : State) (v : Byte) : (writeTmr0 s v).draws = s.draws := rfl
@[simp] theorem State.cycles_writeTmr0 (s : State) (v : Byte) : (writeTmr0 s v).cycles = s.cycles := rfl

/-! ### writeIo -/

@[simp] theorem State.dev_writeIo (s : State) (a n : DataAddr) (v : Byte) : (writeIo s a n v).dev = s.dev := rfl
@[simp] theorem State.program_writeIo (s : State) (a n : DataAddr) (v : Byte) : (writeIo s a n v).program = s.program := rfl
@[simp] theorem State.w_writeIo (s : State) (a n : DataAddr) (v : Byte) : (writeIo s a n v).w = s.w := rfl
@[simp] theorem State.status_writeIo (s : State) (a n : DataAddr) (v : Byte) : (writeIo s a n v).status = s.status := rfl
@[simp] theorem State.optionReg_writeIo (s : State) (a n : DataAddr) (v : Byte) : (writeIo s a n v).optionReg = s.optionReg := rfl
@[simp] theorem State.pcon_writeIo (s : State) (a n : DataAddr) (v : Byte) : (writeIo s a n v).pcon = s.pcon := rfl
@[simp] theorem State.fsr_writeIo (s : State) (a n : DataAddr) (v : Byte) : (writeIo s a n v).fsr = s.fsr := rfl
@[simp] theorem State.pclath_writeIo (s : State) (a n : DataAddr) (v : Byte) : (writeIo s a n v).pclath = s.pclath := rfl
@[simp] theorem State.intcon_writeIo (s : State) (a n : DataAddr) (v : Byte) : (writeIo s a n v).intcon = s.intcon := rfl
@[simp] theorem State.tmr0_writeIo (s : State) (a n : DataAddr) (v : Byte) : (writeIo s a n v).tmr0 = s.tmr0 := rfl
@[simp] theorem State.ram_writeIo (s : State) (a n : DataAddr) (v : Byte) : (writeIo s a n v).ram = s.ram := rfl
@[simp] theorem State.latches_writeIo (s : State) (a n : DataAddr) (v : Byte) : (writeIo s a n v).latches = s.latches.write n.toNat v := rfl
@[simp] theorem State.outputs_writeIo (s : State) (a n : DataAddr) (v : Byte) : (writeIo s a n v).outputs = (a, v) :: s.outputs := rfl
@[simp] theorem State.pc_writeIo (s : State) (a n : DataAddr) (v : Byte) : (writeIo s a n v).pc = s.pc := rfl
@[simp] theorem State.stack_writeIo (s : State) (a n : DataAddr) (v : Byte) : (writeIo s a n v).stack = s.stack := rfl
@[simp] theorem State.wdtCount_writeIo (s : State) (a n : DataAddr) (v : Byte) : (writeIo s a n v).wdtCount = s.wdtCount := rfl
@[simp] theorem State.prescaler_writeIo (s : State) (a n : DataAddr) (v : Byte) : (writeIo s a n v).prescaler = s.prescaler := rfl
@[simp] theorem State.asleep_writeIo (s : State) (a n : DataAddr) (v : Byte) : (writeIo s a n v).asleep = s.asleep := rfl
@[simp] theorem State.mustExecuteOne_writeIo (s : State) (a n : DataAddr) (v : Byte) : (writeIo s a n v).mustExecuteOne = s.mustExecuteOne := rfl
@[simp] theorem State.intPin_writeIo (s : State) (a n : DataAddr) (v : Byte) : (writeIo s a n v).intPin = s.intPin := rfl
@[simp] theorem State.peripheralReq_writeIo (s : State) (a n : DataAddr) (v : Byte) : (writeIo s a n v).peripheralReq = s.peripheralReq := rfl
@[simp] theorem State.midFlags_writeIo (s : State) (a n : DataAddr) (v : Byte) : (writeIo s a n v).midFlags = s.midFlags := rfl
@[simp] theorem State.platformPending_writeIo (s : State) (a n : DataAddr) (v : Byte) : (writeIo s a n v).platformPending = s.platformPending := rfl
@[simp] theorem State.ioIn_writeIo (s : State) (a n : DataAddr) (v : Byte) : (writeIo s a n v).ioIn = s.ioIn := rfl
@[simp] theorem State.inputs_writeIo (s : State) (a n : DataAddr) (v : Byte) : (writeIo s a n v).inputs = s.inputs := rfl
@[simp] theorem State.draws_writeIo (s : State) (a n : DataAddr) (v : Byte) : (writeIo s a n v).draws = s.draws := rfl
@[simp] theorem State.cycles_writeIo (s : State) (a n : DataAddr) (v : Byte) : (writeIo s a n v).cycles = s.cycles := rfl

/-! ### writeIntcon -/

@[simp] theorem State.dev_writeIntcon (s : State) (v : Byte) : (writeIntcon s v).dev = s.dev := rfl
@[simp] theorem State.program_writeIntcon (s : State) (v : Byte) : (writeIntcon s v).program = s.program := rfl
@[simp] theorem State.w_writeIntcon (s : State) (v : Byte) : (writeIntcon s v).w = s.w := rfl
@[simp] theorem State.status_writeIntcon (s : State) (v : Byte) : (writeIntcon s v).status = s.status := rfl
@[simp] theorem State.optionReg_writeIntcon (s : State) (v : Byte) : (writeIntcon s v).optionReg = s.optionReg := rfl
@[simp] theorem State.pcon_writeIntcon (s : State) (v : Byte) : (writeIntcon s v).pcon = s.pcon := rfl
@[simp] theorem State.fsr_writeIntcon (s : State) (v : Byte) : (writeIntcon s v).fsr = s.fsr := rfl
@[simp] theorem State.pclath_writeIntcon (s : State) (v : Byte) : (writeIntcon s v).pclath = s.pclath := rfl
@[simp] theorem State.intcon_writeIntcon (s : State) (v : Byte) : (writeIntcon s v).intcon = v := rfl
@[simp] theorem State.tmr0_writeIntcon (s : State) (v : Byte) : (writeIntcon s v).tmr0 = s.tmr0 := rfl
@[simp] theorem State.ram_writeIntcon (s : State) (v : Byte) : (writeIntcon s v).ram = s.ram := rfl
@[simp] theorem State.latches_writeIntcon (s : State) (v : Byte) : (writeIntcon s v).latches = s.latches := rfl
@[simp] theorem State.outputs_writeIntcon (s : State) (v : Byte) : (writeIntcon s v).outputs = s.outputs := rfl
@[simp] theorem State.pc_writeIntcon (s : State) (v : Byte) : (writeIntcon s v).pc = s.pc := rfl
@[simp] theorem State.stack_writeIntcon (s : State) (v : Byte) : (writeIntcon s v).stack = s.stack := rfl
@[simp] theorem State.wdtCount_writeIntcon (s : State) (v : Byte) : (writeIntcon s v).wdtCount = s.wdtCount := rfl
@[simp] theorem State.prescaler_writeIntcon (s : State) (v : Byte) : (writeIntcon s v).prescaler = s.prescaler := rfl
@[simp] theorem State.asleep_writeIntcon (s : State) (v : Byte) : (writeIntcon s v).asleep = s.asleep := rfl
@[simp] theorem State.mustExecuteOne_writeIntcon (s : State) (v : Byte) : (writeIntcon s v).mustExecuteOne = s.mustExecuteOne := rfl
@[simp] theorem State.intPin_writeIntcon (s : State) (v : Byte) : (writeIntcon s v).intPin = s.intPin := rfl
@[simp] theorem State.peripheralReq_writeIntcon (s : State) (v : Byte) : (writeIntcon s v).peripheralReq = s.peripheralReq := rfl
@[simp] theorem State.midFlags_writeIntcon (s : State) (v : Byte) : (writeIntcon s v).midFlags = 0#3 := rfl
@[simp] theorem State.platformPending_writeIntcon (s : State) (v : Byte) : (writeIntcon s v).platformPending = s.platformPending := rfl
@[simp] theorem State.ioIn_writeIntcon (s : State) (v : Byte) : (writeIntcon s v).ioIn = s.ioIn := rfl
@[simp] theorem State.inputs_writeIntcon (s : State) (v : Byte) : (writeIntcon s v).inputs = s.inputs := rfl
@[simp] theorem State.draws_writeIntcon (s : State) (v : Byte) : (writeIntcon s v).draws = s.draws := rfl
@[simp] theorem State.cycles_writeIntcon (s : State) (v : Byte) : (writeIntcon s v).cycles = s.cycles := rfl

/-! ### advancePc -/

@[simp] theorem State.dev_advancePc (s : State) : (advancePc s).dev = s.dev := rfl
@[simp] theorem State.program_advancePc (s : State) : (advancePc s).program = s.program := rfl
@[simp] theorem State.w_advancePc (s : State) : (advancePc s).w = s.w := rfl
@[simp] theorem State.status_advancePc (s : State) : (advancePc s).status = s.status := rfl
@[simp] theorem State.optionReg_advancePc (s : State) : (advancePc s).optionReg = s.optionReg := rfl
@[simp] theorem State.pcon_advancePc (s : State) : (advancePc s).pcon = s.pcon := rfl
@[simp] theorem State.fsr_advancePc (s : State) : (advancePc s).fsr = s.fsr := rfl
@[simp] theorem State.pclath_advancePc (s : State) : (advancePc s).pclath = s.pclath := rfl
@[simp] theorem State.intcon_advancePc (s : State) : (advancePc s).intcon = s.intcon := rfl
@[simp] theorem State.tmr0_advancePc (s : State) : (advancePc s).tmr0 = s.tmr0 := rfl
@[simp] theorem State.ram_advancePc (s : State) : (advancePc s).ram = s.ram := rfl
@[simp] theorem State.latches_advancePc (s : State) : (advancePc s).latches = s.latches := rfl
@[simp] theorem State.outputs_advancePc (s : State) : (advancePc s).outputs = s.outputs := rfl
@[simp] theorem State.pc_advancePc (s : State) : (advancePc s).pc = nextPc s.dev s.pc := rfl
@[simp] theorem State.stack_advancePc (s : State) : (advancePc s).stack = s.stack := rfl
@[simp] theorem State.wdtCount_advancePc (s : State) : (advancePc s).wdtCount = s.wdtCount := rfl
@[simp] theorem State.prescaler_advancePc (s : State) : (advancePc s).prescaler = s.prescaler := rfl
@[simp] theorem State.asleep_advancePc (s : State) : (advancePc s).asleep = s.asleep := rfl
@[simp] theorem State.mustExecuteOne_advancePc (s : State) : (advancePc s).mustExecuteOne = s.mustExecuteOne := rfl
@[simp] theorem State.intPin_advancePc (s : State) : (advancePc s).intPin = s.intPin := rfl
@[simp] theorem State.peripheralReq_advancePc (s : State) : (advancePc s).peripheralReq = s.peripheralReq := rfl
@[simp] theorem State.midFlags_advancePc (s : State) : (advancePc s).midFlags = s.midFlags := rfl
@[simp] theorem State.platformPending_advancePc (s : State) : (advancePc s).platformPending = s.platformPending := rfl
@[simp] theorem State.ioIn_advancePc (s : State) : (advancePc s).ioIn = s.ioIn := rfl
@[simp] theorem State.inputs_advancePc (s : State) : (advancePc s).inputs = s.inputs := rfl
@[simp] theorem State.draws_advancePc (s : State) : (advancePc s).draws = s.draws := rfl
@[simp] theorem State.cycles_advancePc (s : State) : (advancePc s).cycles = s.cycles + 1 := rfl

end Sys2Proof.Machine
end

