-- ==== Sys2Proof/Laws/Flags.lean ====
section
/-! SUPPORT. The bits of STATUS and INTCON after each kind of write, one lemma per operation. -/

namespace Sys2Proof.Machine

theorem putBit_getLsbD (v : Byte) (i : Nat) (x : Bool) (hi : i < 8) (j : Nat) :
    (putBit v i x).getLsbD j = if j = i then x else v.getLsbD j := by
  unfold putBit
  cases x
  · simp only [Bool.false_eq_true, if_false, BitVec.getLsbD_and, BitVec.getLsbD_not, BitVec.getLsbD_shiftLeft,
      BitVec.getLsbD_one]
    by_cases h : j = i
    · subst h; simp [hi]
    · by_cases hj : j < 8
      · simp only [if_neg h, hj, decide_true, Bool.true_and]
        rcases Nat.lt_or_gt_of_ne h with hlt | hgt
        · simp [hlt]
        · have : j - i ≠ 0 := by omega
          simp [this]
      · simp [hj, BitVec.getLsbD_of_ge v j (by omega)]
  · simp only [if_true, BitVec.getLsbD_or, BitVec.getLsbD_shiftLeft, BitVec.getLsbD_one]
    by_cases h : j = i
    · subst h; simp [hi]
    · simp only [if_neg h]
      rcases Nat.lt_or_gt_of_ne h with hlt | hgt
      · simp [hlt]
      · have : j - i ≠ 0 := by omega
        simp [this]

theorem putBitOpt_getLsbD (v : Byte) (i : Nat) (x : Option Bool) (hi : i < 8) (j : Nat) :
    (putBitOpt v i x).getLsbD j = if j = i then x.getD (v.getLsbD j) else v.getLsbD j := by
  cases x with
  | none => simp [putBitOpt]
  | some b =>
    simp only [putBitOpt, putBit_getLsbD v i b hi j, Option.getD_some]

/-- The device logic writes exactly the affected bits among C, DC, Z. -/
theorem updateFlags_getLsbD (st : Byte) (u : FlagUpdate) (j : Nat) :
    (updateFlags st u).getLsbD j =
      if j = 0 then u.c.getD (st.getLsbD 0) else if j = 1 then u.dc.getD (st.getLsbD 1)
      else if j = 2 then u.z.getD (st.getLsbD 2) else st.getLsbD j := by
  simp only [updateFlags, putBitOpt_getLsbD _ _ _ (by omega : (2 : Nat) < 8), putBitOpt_getLsbD _ _ _ (by omega : (1 : Nat) < 8),
    putBitOpt_getLsbD _ _ _ (by omega : (0 : Nat) < 8)]
  by_cases h0 : j = 0
  · subst h0; simp
  · by_cases h1 : j = 1
    · subst h1; simp
    · by_cases h2 : j = 2
      · subst h2; simp
      · simp [h0, h1, h2]

/-- The data write of STATUS, bit by bit (10_state.md R26). -/
theorem writeStatus_getLsbD (old v : Byte) (q : Bool) (j : Nat) :
    (writeStatus old v q).getLsbD j =
      if j < 3 then (if q then v else old).getLsbD j else if j < 5 then old.getLsbD j else v.getLsbD j := by
  have key : ∀ w : Byte, ((v &&& 0xE0#8) ||| (old &&& 0x18#8) ||| (w &&& 0x07#8)).getLsbD j =
      if j < 3 then w.getLsbD j else if j < 5 then old.getLsbD j else v.getLsbD j := by
    intro w
    by_cases hj : j < 8
    · simp only [BitVec.getLsbD_or, BitVec.getLsbD_and]
      interval_cases j <;> simp
    · rw [BitVec.getLsbD_of_ge _ _ (by omega), if_neg (by omega), if_neg (by omega), BitVec.getLsbD_of_ge _ _ (by omega)]
  exact key _

/-- The device logic's write of TO and PD touches no other bit. -/
theorem putToPd_getLsbD (st : Byte) (t p : Bool) (j : Nat) :
    (putToPd st t p).getLsbD j = if j = 3 then p else if j = 4 then t else st.getLsbD j := by
  simp only [putToPd, putBit_getLsbD _ _ _ (by omega : (3 : Nat) < 8), putBit_getLsbD _ _ _ (by omega : (4 : Nat) < 8)]

@[simp] theorem FlagUpdate.isNothing_nothing : FlagUpdate.nothing.isNothing = true := rfl

theorem FlagUpdate.eq_nothing (u : FlagUpdate) (h : u.isNothing = true) : u = FlagUpdate.nothing := by
  obtain ⟨c, dc, z⟩ := u
  cases c <;> cases dc <;> cases z <;> simp_all [FlagUpdate.isNothing, FlagUpdate.nothing]

theorem updateFlags_nothing (st : Byte) : updateFlags st FlagUpdate.nothing = st := rfl

end Sys2Proof.Machine
end

