-- ==== Sys2Proof/Laws/Memory.lean ====
section
/-! SUPPORT. The laws of cells: a read after a write, the canonical form, and that equal reads mean equal memories. -/

namespace Sys2Proof.Machine

theorem Memory.read_entry_self (a : Nat) (v : Byte) (m : Memory) (h : Memory.read m a = Memory.unlisted) :
    Memory.read (Memory.entry a v m) a = v := by
  unfold Memory.entry
  split
  · next hv => rw [h, hv]
  · simp [Memory.read]

theorem Memory.read_entry_other (a b : Nat) (v : Byte) (m : Memory) (h : b ≠ a) :
    Memory.read (Memory.entry a v m) b = Memory.read m b := by
  unfold Memory.entry
  split
  · rfl
  · simp [Memory.read, h]

theorem Memory.read_below (m : Memory) : ∀ (lo a : Nat), Memory.wfFrom lo m = true → a < lo →
    Memory.read m a = Memory.unlisted := by
  induction m with
  | nil => intros; rfl
  | cons c rest ih =>
    obtain ⟨b, x⟩ := c
    intro lo a h ha
    simp only [Memory.wfFrom, Bool.and_eq_true, decide_eq_true_eq] at h
    simp only [Memory.read]
    rw [if_neg (by omega)]
    exact ih (b + 1) a h.2 (by omega)

theorem Memory.wfFrom_mono (m : Memory) (lo lo' : Nat) (h : Memory.wfFrom lo m = true) (hl : lo' ≤ lo) :
    Memory.wfFrom lo' m = true := by
  cases m with
  | nil => rfl
  | cons c rest =>
    obtain ⟨b, x⟩ := c
    simp only [Memory.wfFrom, Bool.and_eq_true, decide_eq_true_eq] at h ⊢
    exact ⟨⟨⟨by omega, h.1.1.2⟩, h.1.2⟩, h.2⟩

theorem Memory.wfFrom_entry (a lo : Nat) (v : Byte) (m : Memory) (hm : Memory.wfFrom (a + 1) m = true) (hl : lo ≤ a)
    (ha : a < 512) : Memory.wfFrom lo (Memory.entry a v m) = true := by
  unfold Memory.entry
  split
  · exact Memory.wfFrom_mono m (a + 1) lo hm (by omega)
  · next hv => simp [Memory.wfFrom, hl, ha, hv, hm]

/-- A read of the cell just written gives the value written. -/
theorem Memory.read_write_self (m : Memory) : ∀ (lo a : Nat) (v : Byte), Memory.wfFrom lo m = true →
    Memory.read (Memory.write m a v) a = v := by
  induction m with
  | nil => intro lo a v _; exact Memory.read_entry_self a v [] rfl
  | cons c rest ih =>
    obtain ⟨b, x⟩ := c
    intro lo a v h
    have h' := h
    simp only [Memory.wfFrom, Bool.and_eq_true, decide_eq_true_eq] at h
    simp only [Memory.write]
    split
    · next hab =>
      apply Memory.read_entry_self
      exact Memory.read_below _ b a (by simp [Memory.wfFrom, h.1.1.2, h.1.2, h.2]) hab
    · split
      · next _ hab =>
        subst hab
        exact Memory.read_entry_self _ _ _ (Memory.read_below _ (a + 1) a h.2 (by omega))
      · next h1 h2 =>
        simp only [Memory.read, if_neg h2]
        exact ih (b + 1) a v h.2

/-- A write leaves every other cell as it was. -/
theorem Memory.read_write_other (m : Memory) : ∀ (a b : Nat) (v : Byte), b ≠ a →
    Memory.read (Memory.write m a v) b = Memory.read m b := by
  induction m with
  | nil => intro a b v h; exact Memory.read_entry_other a b v [] h
  | cons c rest ih =>
    obtain ⟨d, x⟩ := c
    intro a b v h
    simp only [Memory.write]
    split
    · exact Memory.read_entry_other a b v _ h
    · split
      · next _ hab =>
        subst hab
        rw [Memory.read_entry_other _ _ _ _ h]
        simp [Memory.read, h]
      · simp only [Memory.read]
        split
        · rfl
        · exact ih a b v h

theorem Memory.write_wfFrom (m : Memory) : ∀ (lo a : Nat) (v : Byte), Memory.wfFrom lo m = true → lo ≤ a → a < 512 →
    Memory.wfFrom lo (Memory.write m a v) = true := by
  induction m with
  | nil => intro lo a v _ hl ha; exact Memory.wfFrom_entry a lo v [] rfl hl ha
  | cons c rest ih =>
    obtain ⟨b, x⟩ := c
    intro lo a v h hl ha
    simp only [Memory.wfFrom, Bool.and_eq_true, decide_eq_true_eq] at h
    simp only [Memory.write]
    split
    · next hab =>
      apply Memory.wfFrom_entry _ _ _ _ _ hl ha
      simp only [Memory.wfFrom, Bool.and_eq_true, decide_eq_true_eq]
      exact ⟨⟨⟨by omega, h.1.1.2⟩, h.1.2⟩, h.2⟩
    · split
      · next _ hab =>
        subst hab
        exact Memory.wfFrom_entry _ _ _ _ h.2 hl ha
      · simp only [Memory.wfFrom, Bool.and_eq_true, decide_eq_true_eq]
        exact ⟨h.1, ih (b + 1) a v h.2 (by omega) ha⟩

/-- A write keeps the canonical form. -/
theorem Memory.write_wf (m : Memory) (a : DataAddr) (v : Byte) (h : Memory.wf m = true) :
    Memory.wf (Memory.write m a.toNat v) = true :=
  Memory.write_wfFrom m 0 a.toNat v h (Nat.zero_le _) a.isLt

theorem Memory.tabulate_wfFrom (f : Nat → Byte) : ∀ (k n : Nat), n + k ≤ 512 →
    Memory.wfFrom n (Memory.tabulate f n k) = true := by
  intro k
  induction k with
  | zero => intros; rfl
  | succ k ih =>
    intro n h
    exact Memory.wfFrom_entry n n (f n) _ (ih (n + 1) (by omega)) (Nat.le_refl n) (by omega)

/-- Drawn cells are in the canonical form. -/
theorem Memory.drawn_wf (f : Nat → Byte) : Memory.wf (Memory.drawn f) = true :=
  Memory.tabulate_wfFrom f 512 0 (by omega)

theorem Memory.read_tabulate (f : Nat → Byte) : ∀ (k n a : Nat), n + k ≤ 512 → n ≤ a → a < n + k →
    Memory.read (Memory.tabulate f n k) a = f a := by
  intro k
  induction k with
  | zero => intros; omega
  | succ k ih =>
    intro n a h hn ha
    simp only [Memory.tabulate]
    by_cases e : a = n
    · subst e
      exact Memory.read_entry_self a (f a) _
        (Memory.read_below _ (a + 1) a (Memory.tabulate_wfFrom f k (a + 1) (by omega)) (by omega))
    · rw [Memory.read_entry_other _ _ _ _ e]
      exact ih (n + 1) a (by omega) (by omega) (by omega)

/-- Every drawn cell reads as the value drawn for it. -/
theorem Memory.read_drawn (f : Nat → Byte) (a : Nat) (h : a < 512) : Memory.read (Memory.drawn f) a = f a :=
  Memory.read_tabulate f 512 0 a (by omega) (Nat.zero_le a) (by omega)

theorem Memory.ext_from (m : Memory) : ∀ (n : Memory) (lo : Nat), Memory.wfFrom lo m = true → Memory.wfFrom lo n = true →
    (∀ a, Memory.read m a = Memory.read n a) → m = n := by
  induction m with
  | nil =>
    intro n lo _ hn h
    cases n with
    | nil => rfl
    | cons c rest =>
      obtain ⟨b, x⟩ := c
      simp only [Memory.wfFrom, Bool.and_eq_true, bne_iff_ne, ne_eq] at hn
      have := h b
      simp only [Memory.read, if_true] at this
      exact absurd this.symm hn.1.2
  | cons c rest ih =>
    obtain ⟨b, x⟩ := c
    intro n lo hm hn h
    cases n with
    | nil =>
      simp only [Memory.wfFrom, Bool.and_eq_true, bne_iff_ne, ne_eq] at hm
      have := h b
      simp only [Memory.read, if_true] at this
      exact absurd this hm.1.2
    | cons c' rest' =>
      obtain ⟨b', x'⟩ := c'
      have hm' := hm
      have hn' := hn
      simp only [Memory.wfFrom, Bool.and_eq_true, bne_iff_ne, ne_eq, decide_eq_true_eq] at hm hn
      have hb : b = b' := by
        rcases Nat.lt_trichotomy b b' with hlt | heq | hgt
        · have := h b
          simp only [Memory.read, if_true, if_neg (Nat.ne_of_lt hlt)] at this
          rw [Memory.read_below rest' (b' + 1) b hn.2 (by omega)] at this
          exact absurd this hm.1.2
        · exact heq
        · have := h b'
          simp only [Memory.read, if_true, if_neg (Nat.ne_of_lt hgt)] at this
          rw [Memory.read_below rest (b + 1) b' hm.2 (by omega)] at this
          exact absurd this.symm hn.1.2
      subst hb
      have hx : x = x' := by
        have := h b
        simpa only [Memory.read, if_true] using this
      subst hx
      have : rest = rest' := by
        apply ih rest' (b + 1) hm.2 hn.2
        intro a
        by_cases e : a = b
        · subst e
          rw [Memory.read_below rest (a + 1) a hm.2 (by omega), Memory.read_below rest' (a + 1) a hn.2 (by omega)]
        · have := h a
          simpa only [Memory.read, if_neg e] using this
      rw [this]

/-- Canonical memories that read alike are equal. -/
theorem Memory.eq_of_read (m n : Memory) (hm : Memory.wf m = true) (hn : Memory.wf n = true)
    (h : ∀ a, Memory.read m a = Memory.read n a) : m = n := Memory.ext_from m n 0 hm hn h

end Sys2Proof.Machine
end

