-- ==== Sys2Proof/Laws/Ops.lean ====
section
/-! SUPPORT. For each shared operation one lemma that says once everything it can do; later proofs cite these and unfold
nothing. -/

namespace Sys2Proof.Machine

/-! ### Access to file registers -/

/-- An access can only be refused for a reserved bank or for a missing register. -/
theorem accessFault_none_iff (s : State) (a : DataAddr) :
    accessFault s a = none ↔ reservedBank s.dev a = false ∧ fileCell s.dev a ≠ .unimplemented := by
  unfold accessFault
  by_cases h1 : reservedBank s.dev a = true
  · simp [h1]
  · by_cases h2 : fileCell s.dev a = .unimplemented
    · simp [h1, h2]
    · simp [h1, h2]

/-- The fault of an access depends on the device and the address alone. -/
theorem accessFault_congr (s t : State) (a : DataAddr) (h : t.dev = s.dev) : accessFault t a = accessFault s a := by
  simp only [accessFault, h]

theorem readFile_ok_iff (s t : State) (a : DataAddr) (x : Byte) :
    readFile s a = .ok (x, t) ↔ accessFault s a = none ∧ x = peek s a ∧ t = afterRead s a := by
  unfold readFile
  cases h : accessFault s a with
  | none => simp [eq_comm]
  | some e => simp

theorem readFile_of_ok (s : State) (a : DataAddr) (h : accessFault s a = none) :
    readFile s a = .ok (peek s a, afterRead s a) := by
  simp [readFile, h]

theorem writeFile_of_ok (s : State) (a : DataAddr) (v : Byte) (q : Bool) (h : accessFault s a = none) :
    writeFile s a v q = .ok (poke s a v q) := by
  simp [writeFile, h]

theorem writeFile_ok_iff (s t : State) (a : DataAddr) (v : Byte) (q : Bool) :
    writeFile s a v q = .ok t ↔ accessFault s a = none ∧ t = poke s a v q := by
  unfold writeFile
  cases h : accessFault s a with
  | none => simp [eq_comm]
  | some e => simp

/-- A read of a register that is neither a pin register nor TMR0 changes nothing at all. -/
theorem afterRead_of_not_oracle (s : State) (a : DataAddr) (h : asksOracle (fileCell s.dev a) = false) :
    afterRead s a = s := by
  simp [afterRead, h]

/-! ### What a write to a file register never touches -/

@[simp] theorem poke_dev (s : State) (a : DataAddr) (v : Byte) (q : Bool) : (poke s a v q).dev = s.dev := by
  unfold poke; split <;> rfl

@[simp] theorem poke_program (s : State) (a : DataAddr) (v : Byte) (q : Bool) : (poke s a v q).program = s.program := by
  unfold poke; split <;> rfl

@[simp] theorem poke_w (s : State) (a : DataAddr) (v : Byte) (q : Bool) : (poke s a v q).w = s.w := by
  unfold poke; split <;> rfl

@[simp] theorem poke_stack (s : State) (a : DataAddr) (v : Byte) (q : Bool) : (poke s a v q).stack = s.stack := by
  unfold poke; split <;> rfl

@[simp] theorem poke_wdtCount (s : State) (a : DataAddr) (v : Byte) (q : Bool) : (poke s a v q).wdtCount = s.wdtCount := by
  unfold poke; split <;> rfl

@[simp] theorem poke_asleep (s : State) (a : DataAddr) (v : Byte) (q : Bool) : (poke s a v q).asleep = s.asleep := by
  unfold poke; split <;> rfl

@[simp] theorem poke_mustExecuteOne (s : State) (a : DataAddr) (v : Byte) (q : Bool) :
    (poke s a v q).mustExecuteOne = s.mustExecuteOne := by
  unfold poke; split <;> rfl

@[simp] theorem poke_intPin (s : State) (a : DataAddr) (v : Byte) (q : Bool) : (poke s a v q).intPin = s.intPin := by
  unfold poke; split <;> rfl

@[simp] theorem poke_peripheralReq (s : State) (a : DataAddr) (v : Byte) (q : Bool) :
    (poke s a v q).peripheralReq = s.peripheralReq := by
  unfold poke; split <;> rfl

@[simp] theorem poke_platformPending (s : State) (a : DataAddr) (v : Byte) (q : Bool) :
    (poke s a v q).platformPending = s.platformPending := by
  unfold poke; split <;> rfl

@[simp] theorem poke_ioIn (s : State) (a : DataAddr) (v : Byte) (q : Bool) : (poke s a v q).ioIn = s.ioIn := by
  unfold poke; split <;> rfl

@[simp] theorem poke_inputs (s : State) (a : DataAddr) (v : Byte) (q : Bool) : (poke s a v q).inputs = s.inputs := by
  unfold poke; split <;> rfl

@[simp] theorem poke_draws (s : State) (a : DataAddr) (v : Byte) (q : Bool) : (poke s a v q).draws = s.draws := by
  unfold poke; split <;> rfl

/-- The cells and the latches keep their canonical form under any write. -/
theorem poke_wf (s : State) (a : DataAddr) (v : Byte) (q : Bool) (hr : Memory.wf s.ram = true)
    (hl : Memory.wf s.latches = true) :
    Memory.wf (poke s a v q).ram = true ∧ Memory.wf (poke s a v q).latches = true := by
  unfold poke
  split <;> first | exact ⟨hr, hl⟩ | exact ⟨hr, Memory.write_wf _ _ _ hl⟩ | exact ⟨Memory.write_wf _ _ _ hr, hl⟩

/-- The PC after a write: loaded when the register is PCL, else as it was. -/
theorem poke_pc (s : State) (a : DataAddr) (v : Byte) (q : Bool) :
    (poke s a v q).pc = if fileCell s.dev a = .pcl then pclTarget s v else s.pc := by
  unfold poke
  split <;> simp_all

/-- A flag raised inside the step is lost to a write of INTCON and to no other (20_memory.md R72). -/
theorem poke_midFlags (s : State) (a : DataAddr) (v : Byte) (q : Bool) :
    (poke s a v q).midFlags = if fileCell s.dev a = .intcon then 0#3 else s.midFlags := by
  unfold poke
  split <;> simp_all

/-! ### The stack and interrupts -/

theorem push_ok_iff (s t : State) (v : ProgAddr) :
    push s v = .ok t ↔ s.stack.length < s.dev.stackDepth ∧ t = { s with stack := v :: s.stack } := by
  unfold push
  by_cases h : s.dev.stackDepth ≤ s.stack.length
  · simp [h, Nat.not_lt.mpr h]
  · simp [h, Nat.not_le.mp h, eq_comm]

theorem pop_ok_iff (s t : State) (a : ProgAddr) :
    pop s = .ok (a, t) ↔ ∃ rest, s.stack = a :: rest ∧ t = { s with stack := rest } := by
  unfold pop
  cases h : s.stack with
  | nil => simp
  | cons b rest =>
    constructor
    · intro e
      simp only [Except.ok.injEq, Prod.mk.injEq] at e
      exact ⟨rest, by rw [e.1], e.2.symm⟩
    · rintro ⟨rest', e, rfl⟩
      simp only [List.cons.injEq] at e
      rw [e.1, e.2]

theorem returnToCaller_ok_iff (s t : State) :
    returnToCaller s = .ok t ↔
      ∃ a rest, s.stack = a :: rest ∧ t = { s with stack := rest, pc := a, cycles := s.cycles + 1 } := by
  unfold returnToCaller pop
  cases h : s.stack with
  | nil => simp [Except.map]
  | cons b rest =>
    constructor
    · intro e
      simp only [Except.map, Except.ok.injEq] at e
      exact ⟨b, rest, rfl, e.symm⟩
    · rintro ⟨a, rest', e, rfl⟩
      simp only [List.cons.injEq] at e
      simp only [Except.map, Except.ok.injEq]
      rw [e.1, e.2]
      rfl

theorem interruptEntry_ok_iff (s t : State) :
    interruptEntry s = .ok t ↔ s.stack.length < s.dev.stackDepth ∧
      t = { s with stack := s.pc :: s.stack, intcon := putBit s.intcon 7 false, pc := 0x0004#13 } := by
  unfold interruptEntry push
  by_cases h : s.dev.stackDepth ≤ s.stack.length
  · simp [h, Nat.not_lt.mpr h, Except.map]
  · simp [h, Nat.not_le.mp h, Except.map, eq_comm]

theorem interruptReturn_ok_iff (s t : State) :
    interruptReturn s = .ok t ↔ ∃ a rest, s.stack = a :: rest ∧
      t = { s with stack := rest, pc := a, cycles := s.cycles + 1, intcon := putBit s.intcon 7 true } := by
  unfold interruptReturn
  constructor
  · intro h
    cases hr : returnToCaller s with
    | error e => simp [hr, Except.map] at h
    | ok r =>
      obtain ⟨a, rest, hs, rfl⟩ := (returnToCaller_ok_iff s r).mp hr
      simp only [hr, Except.map, Except.ok.injEq] at h
      exact ⟨a, rest, hs, h.symm⟩
  · rintro ⟨a, rest, hs, rfl⟩
    rw [(returnToCaller_ok_iff s _).mpr ⟨a, rest, hs, rfl⟩]
    rfl

/-! ### Program memory -/

theorem progRead_ok_iff (s : State) (a : ProgAddr) (word : InstrWord) :
    progRead s a = .ok word ↔ s.program[a.toNat]? = some word := by
  unfold progRead
  cases h : s.program[a.toNat]? <;> simp

theorem placeWord_get (p : List InstrWord) : ∀ (a : Nat) (w : InstrWord), (placeWord p a w)[a]? = some w := by
  induction p with
  | nil =>
    intro a w
    induction a with
    | zero => rfl
    | succ a ih => simpa [placeWord] using ih
  | cons x rest ih =>
    intro a w
    cases a with
    | zero => rfl
    | succ a => simpa [placeWord] using ih a w

/-! ### The shapes of instructions -/

@[simp] theorem finish_ok (s : State) : finish (.ok s) = .next s := rfl

@[simp] theorem finish_error (e : Fault) : finish (.error e) = .fault e := rfl

theorem finish_next_iff (r : Except Fault State) (t : State) : finish r = .next t ↔ r = .ok t := by
  cases r <;> simp

theorem finish_not_refused (r : Except Fault State) (e : Refusal) : finish r ≠ .refused e := by
  cases r <;> simp [finish]

/-- Where the result goes: W, or a write to the register. -/
def destState (s : State) (a : DataAddr) (d : Dest) (out : AluOut) : State :=
  match d with
  | .w => s.setW out.result
  | .f => poke s a out.result out.flags.isNothing

@[simp] theorem destState_w (s : State) (a : DataAddr) (out : AluOut) : destState s a .w out = s.setW out.result := rfl

@[simp] theorem destState_f (s : State) (a : DataAddr) (out : AluOut) :
    destState s a .f out = poke s a out.result out.flags.isNothing := rfl

/-- A byte-oriented operation with an accessible register: read, deliver, write the status bits. -/
theorem fileToDest_of_ok (s : State) (f : FileField) (d : Dest) (op : Byte → AluOut)
    (h : accessFault s (operandAddr s f) = none) :
    fileToDest s f d op = .ok (op (peek s (operandAddr s f)),
      (destState (afterRead s (operandAddr s f)) (operandAddr s f) d (op (peek s (operandAddr s f)))).setFlags
        (op (peek s (operandAddr s f))).flags) := by
  have h' : accessFault (afterRead s (operandAddr s f)) (operandAddr s f) = none := by
    rw [accessFault_congr s (afterRead s (operandAddr s f)) _ rfl]; exact h
  unfold fileToDest
  rw [readFile_of_ok _ _ h]
  cases d
  · rfl
  · simp only [writeDest, writeFile_of_ok _ _ _ _ h', destState]

/-- Without an accessible register it faults as the access does. -/
theorem fileToDest_of_fault (s : State) (f : FileField) (d : Dest) (op : Byte → AluOut) (e : Fault)
    (h : accessFault s (operandAddr s f) = some e) : fileToDest s f d op = .error e := by
  simp [fileToDest, readFile, h]

theorem byteOp_of_ok (s : State) (f : FileField) (d : Dest) (op : Byte → AluOut)
    (h : accessFault s (operandAddr s f) = none) :
    byteOp s f d op = .next
      ((destState (afterRead s (operandAddr s f)) (operandAddr s f) d (op (peek s (operandAddr s f)))).setFlags
        (op (peek s (operandAddr s f))).flags) := by
  simp [byteOp, fileToDest_of_ok s f d op h, Except.map]

theorem byteOpSkip_of_ok (s : State) (f : FileField) (d : Dest) (op : Byte → AluOut)
    (h : accessFault s (operandAddr s f) = none) :
    byteOpSkip s f d op = .next
      ((((destState (afterRead s (operandAddr s f)) (operandAddr s f) d (op (peek s (operandAddr s f)))).setFlags
        (op (peek s (operandAddr s f))).flags).skipIf ((op (peek s (operandAddr s f))).result == 0#8)).atMostOneMoreCycle
          s.cycles) := by
  simp [byteOpSkip, fileToDest_of_ok s f d op h, Except.map]

theorem storeOp_of_ok (s : State) (f : FileField) (out : AluOut) (h : accessFault s (operandAddr s f) = none) :
    storeOp s f out = .next ((poke s (operandAddr s f) out.result out.flags.isNothing).setFlags out.flags) := by
  simp [storeOp, writeFile_of_ok _ _ _ _ h, Except.map]

theorem bitTest_of_ok (s : State) (f : FileField) (cond : Byte → Bool) (h : accessFault s (operandAddr s f) = none) :
    bitTest s f cond = .next
      ((afterRead s (operandAddr s f)).skipIf (cond (peek s (operandAddr s f)))) := by
  simp [bitTest, readFile_of_ok _ _ h, Except.map]

theorem byteOp_of_fault (s : State) (f : FileField) (d : Dest) (op : Byte → AluOut) (e : Fault)
    (h : accessFault s (operandAddr s f) = some e) : byteOp s f d op = .fault e := by
  simp [byteOp, fileToDest_of_fault s f d op e h, Except.map]

theorem byteOpSkip_of_fault (s : State) (f : FileField) (d : Dest) (op : Byte → AluOut) (e : Fault)
    (h : accessFault s (operandAddr s f) = some e) : byteOpSkip s f d op = .fault e := by
  simp [byteOpSkip, fileToDest_of_fault s f d op e h, Except.map]

theorem storeOp_of_fault (s : State) (f : FileField) (out : AluOut) (e : Fault)
    (h : accessFault s (operandAddr s f) = some e) : storeOp s f out = .fault e := by
  simp [storeOp, writeFile, h, Except.map]

theorem bitTest_of_fault (s : State) (f : FileField) (cond : Byte → Bool) (e : Fault)
    (h : accessFault s (operandAddr s f) = some e) : bitTest s f cond = .fault e := by
  simp [bitTest, readFile, h, Except.map]

end Sys2Proof.Machine
end

