-- ==== Sys2Proof/Laws/Contents.lean ====
section
/-! SUPPORT. What a write of a file register does to each thing it can touch, and what every cell holds afterwards. -/

namespace Sys2Proof.Machine

/-! ### PCON -/

/-- A read of PCON, bit by bit. -/
theorem pconValue_getLsbD (d : Device) (p : BitVec 3) (n : Nat) : (pconValue d p).getLsbD n =
      (if n = 7 then d.hasPer && d.configMpeen else if n = 2 then d.hasPer && p.getLsbD 2
       else if n = 1 then p.getLsbD 1 else if n = 0 then d.hasBor && p.getLsbD 0 else false) := by
  by_cases hn : n < 8
  · unfold pconValue
    generalize (d.hasPer && d.configMpeen) = a
    generalize (d.hasPer && p.getLsbD 2) = b
    generalize (p.getLsbD 1) = c
    generalize (d.hasBor && p.getLsbD 0) = e
    revert a b c e
    interval_cases n <;> decide
  · rw [BitVec.getLsbD_of_ge _ _ (by omega)]
    simp only [if_neg (by omega : ¬ n = 7), if_neg (by omega : ¬ n = 2), if_neg (by omega : ¬ n = 1),
      if_neg (by omega : ¬ n = 0)]

/-- What a write of PCON stores, bit by bit. -/
theorem pconStore_getLsbD (d : Device) (p : BitVec 3) (v : Byte) (n : Nat) (hn : n < 3) : (pconStore d p v).getLsbD n =
     (if n = 2 then if d.hasPer then v.getLsbD 2 else p.getLsbD 2
       else if n = 1 then v.getLsbD 1 else if d.hasBor then v.getLsbD 0 else p.getLsbD 0) := by
  unfold pconStore
  generalize (if d.hasPer then v.getLsbD 2 else p.getLsbD 2) = a
  generalize (v.getLsbD 1) = b
  generalize (if d.hasBor then v.getLsbD 0 else p.getLsbD 0) = c
  revert a b c
  interval_cases n <;> decide

/-- A read of PCON after a write. -/
theorem pconValue_pconStore (d : Device) (p : BitVec 3) (v : Byte) :
    pconValue d (pconStore d p v) = keeps d .pcon v := by
  apply BitVec.eq_of_getLsbD_eq
  intro n hn
  rw [pconValue_getLsbD, pconStore_getLsbD _ _ _ 2 (by omega), pconStore_getLsbD _ _ _ 1 (by omega),
    pconStore_getLsbD _ _ _ 0 (by omega)]
  cases h1 : d.hasPer <;> cases h2 : d.configMpeen <;> cases h3 : d.hasBor <;> interval_cases n <;> simp [keeps, h1, h2, h3]

/-! ### What a write touches -/

/-- STATUS after a write: changed when STATUS is the register (10_state.md R26). -/
theorem poke_status (s : State) (a : DataAddr) (v : Byte) (q : Bool) :
    (poke s a v q).status = if fileCell s.dev a = .status then writeStatus s.status v q else s.status := by
  unfold poke
  split <;> simp_all

/-- An output event follows a write of an I/O register and no other (20_memory.md R63). -/
theorem poke_outputs (s : State) (a : DataAddr) (v : Byte) (q : Bool) :
    (poke s a v q).outputs = match fileCell s.dev a with | .io _ => (a, v) :: s.outputs | _ => s.outputs := by
  unfold poke
  split <;> simp_all

/-- The prescaler count after a write (20_memory.md R65). -/
theorem poke_prescaler (s : State) (a : DataAddr) (v : Byte) (q : Bool) :
    (poke s a v q).prescaler =
      if fileCell s.dev a = .tmr0 ∧ prescalerToWdt s.optionReg = false then 0x00#8 else s.prescaler := by
  unfold poke
  split <;> simp_all [writeTmr0]
  split <;> simp_all

/-- A write of PCL costs a second cycle (70_reset_and_hazards.md R176). -/
theorem poke_cycles (s : State) (a : DataAddr) (v : Byte) (q : Bool) :
    (poke s a v q).cycles = s.cycles + if fileCell s.dev a = .pcl then 1 else 0 := by
  unfold poke
  split <;> simp_all

/-! ### What each cell holds -/

theorem contents_setFlags (s : State) (u : FlagUpdate) (c : FileCell) (h : c ≠ .status) :
    contents (s.setFlags u) c = contents s c := by
  cases c <;> simp_all [contents]

theorem contents_afterRead (s : State) (a : DataAddr) (c : FileCell) : contents (afterRead s a) c = contents s c := by
  cases c <;> rfl

theorem contents_setW (s : State) (v : Byte) (c : FileCell) : contents (s.setW v) c = contents s c := by
  cases c <;> rfl

/-- After a write, the register written holds what its cell keeps of the value, and every other cell what it held. -/
theorem contents_poke (s : State) (a : DataAddr) (v : Byte) (q : Bool) (hr : Memory.wf s.ram = true)
    (hl : Memory.wf s.latches = true) (c : FileCell) (h1 : c ≠ .status) (h2 : c ≠ .pcl) :
    contents (poke s a v q) c = if c = fileCell s.dev a then keeps s.dev (fileCell s.dev a) v else contents s c := by
  unfold poke
  split <;> rename_i h <;> rw [h] <;> cases c <;> simp_all [contents, State.setStatus, writeTmr0, writeIo, writeIntcon, State.loadPc]
  · rfl
  · exact pconValue_pconStore _ _ _
  · rfl
  · rename_i n m
    split
    · next e => subst e; exact Memory.read_write_self _ 0 _ _ hl
    · next e => exact Memory.read_write_other _ _ _ _ (fun e' => e (BitVec.eq_of_toNat_eq e'))
  · rename_i n m
    split
    · next e => subst e; exact Memory.read_write_self _ 0 _ _ hr
    · next e => exact Memory.read_write_other _ _ _ _ (fun e' => e (BitVec.eq_of_toNat_eq e'))
  · rfl
  · rfl
  · apply BitVec.eq_of_getLsbD_eq
    intro n hn
    interval_cases n <;> simp [keeps]
  · rfl
  · rfl

/-- A write leaves every cell but its own, STATUS and PCL. -/
theorem contents_poke_other (s : State) (a : DataAddr) (v : Byte) (q : Bool) (c : FileCell) (h1 : c ≠ .status)
    (h2 : c ≠ .pcl) (hne : fileCell s.dev a ≠ c) :
    contents (poke s a v q) c = contents s c := by
  unfold poke
  split <;> rename_i h <;> cases c <;> simp_all [contents, State.setStatus, writeTmr0, writeIo, writeIntcon, State.loadPc]
  · exact Memory.read_write_other _ _ _ _ (fun e' => hne (BitVec.eq_of_toNat_eq e'.symm))
  · exact Memory.read_write_other _ _ _ _ (fun e' => hne (BitVec.eq_of_toNat_eq e'.symm))

end Sys2Proof.Machine
end

