-- ==== Sys2Proof/Laws/Events.lean ====
section
/-! SUPPORT. What taking a step's input, the resets and the wake-up do to each field, program addresses as numbers, and what
one step can do at all. -/

namespace Sys2Proof.Machine

/-! ### Program addresses -/

theorem pcTrunc_toNat (d : Device) (a : ProgAddr) : (pcTrunc d a).toNat = a.toNat % 2 ^ d.pcWidth.bits := by
  have h13 := a.isLt
  unfold pcTrunc
  cases h : d.pcWidth with
  | bits11 =>
    have : (0x07FF#13).toNat = 2 ^ 11 - 1 := rfl
    simp only [PcWidth.bits, BitVec.toNat_and, this, Nat.and_two_pow_sub_one_eq_mod]
  | bits12 =>
    have : (0x0FFF#13).toNat = 2 ^ 12 - 1 := rfl
    simp only [PcWidth.bits, BitVec.toNat_and, this, Nat.and_two_pow_sub_one_eq_mod]
  | bits13 => simp only [PcWidth.bits]; omega

theorem pcBits_dvd (p : PcWidth) : 2 ^ p.bits ∣ 8192 := by
  cases p <;> simp only [PcWidth.bits] <;> decide

theorem pcBits_pow_ge (p : PcWidth) : 2048 ≤ 2 ^ p.bits := by
  cases p <;> simp only [PcWidth.bits] <;> decide

theorem nextPc_toNat (d : Device) (a : ProgAddr) : (nextPc d a).toNat = (a.toNat + 1) % 2 ^ d.pcWidth.bits := by
  simp only [nextPc, pcTrunc_toNat, BitVec.toNat_add, BitVec.toNat_ofNat]
  exact Nat.mod_mod_of_dvd _ (pcBits_dvd d.pcWidth)

theorem pcTrunc_fits (d : Device) (a : ProgAddr) : (pcTrunc d a).toNat < 2 ^ d.pcWidth.bits := by
  rw [pcTrunc_toNat]
  exact Nat.mod_lt _ (by have := pcBits_pow_ge d.pcWidth; omega)

theorem pageTarget_toNat (s : State) (k : BitVec 11) :
    (pageTarget s k).toNat = (s.pclath.toNat / 8 * 2048 + k.toNat) % 2 ^ s.dev.pcWidth.bits := by
  have hk := k.isLt
  have hp := s.pclath.isLt
  simp only [pageTarget, pcTrunc_toNat, BitVec.toNat_append, BitVec.extractLsb'_toNat, Nat.shiftRight_eq_div_pow]
  rw [← Nat.shiftLeft_add_eq_or_of_lt hk, Nat.shiftLeft_eq, Nat.mod_eq_of_lt (by omega : s.pclath.toNat / 2 ^ 3 < 2 ^ 2)]
  rfl

theorem pclTarget_toNat (s : State) (v : Byte) :
    (pclTarget s v).toNat = (s.pclath.toNat * 256 + v.toNat) % 2 ^ s.dev.pcWidth.bits := by
  have hv := v.isLt
  simp only [pclTarget, pcTrunc_toNat, BitVec.toNat_append]
  rw [← Nat.shiftLeft_add_eq_or_of_lt hv, Nat.shiftLeft_eq]

/-! ### Taking a step's input touches the environment and the interrupt flags alone -/

@[simp] theorem takeInput_dev (s : State) : (takeInput s).dev = s.dev := rfl
@[simp] theorem takeInput_program (s : State) : (takeInput s).program = s.program := rfl
@[simp] theorem takeInput_w (s : State) : (takeInput s).w = s.w := rfl
@[simp] theorem takeInput_status (s : State) : (takeInput s).status = s.status := rfl
@[simp] theorem takeInput_optionReg (s : State) : (takeInput s).optionReg = s.optionReg := rfl
@[simp] theorem takeInput_pcon (s : State) : (takeInput s).pcon = s.pcon := rfl
@[simp] theorem takeInput_fsr (s : State) : (takeInput s).fsr = s.fsr := rfl
@[simp] theorem takeInput_pclath (s : State) : (takeInput s).pclath = s.pclath := rfl
@[simp] theorem takeInput_tmr0 (s : State) : (takeInput s).tmr0 = s.tmr0 := rfl
@[simp] theorem takeInput_ram (s : State) : (takeInput s).ram = s.ram := rfl
@[simp] theorem takeInput_latches (s : State) : (takeInput s).latches = s.latches := rfl
@[simp] theorem takeInput_outputs (s : State) : (takeInput s).outputs = s.outputs := rfl
@[simp] theorem takeInput_pc (s : State) : (takeInput s).pc = s.pc := rfl
@[simp] theorem takeInput_stack (s : State) : (takeInput s).stack = s.stack := rfl
@[simp] theorem takeInput_wdtCount (s : State) : (takeInput s).wdtCount = s.wdtCount := rfl
@[simp] theorem takeInput_prescaler (s : State) : (takeInput s).prescaler = s.prescaler := rfl
@[simp] theorem takeInput_asleep (s : State) : (takeInput s).asleep = s.asleep := rfl
@[simp] theorem takeInput_mustExecuteOne (s : State) : (takeInput s).mustExecuteOne = s.mustExecuteOne := rfl
@[simp] theorem takeInput_inputs (s : State) : (takeInput s).inputs = s.inputs.tail := rfl
@[simp] theorem takeInput_draws (s : State) : (takeInput s).draws = s.draws := rfl
@[simp] theorem takeInput_platformPending (s : State) : (takeInput s).platformPending = (currentInput s).pending := rfl
@[simp] theorem takeInput_ioIn (s : State) : (takeInput s).ioIn = (currentInput s).ioRead := rfl
@[simp] theorem takeInput_cycles (s : State) : (takeInput s).cycles = s.cycles := rfl

/-- Raising flags sets those bits of INTCON and no other. -/
theorem raiseFlags_getLsbD (x : Byte) (flags : BitVec 3) (j : Nat) :
    (raiseFlags x flags).getLsbD j = (x.getLsbD j || flags.getLsbD j) := by
  simp only [raiseFlags, BitVec.getLsbD_or, BitVec.truncate_eq_setWidth, BitVec.getLsbD_setWidth]
  by_cases hj : j < 8
  · simp [hj]
  · simp [BitVec.getLsbD_of_ge _ _ (by omega : 3 ≤ j)]

/-- The enables and GIE are none of the flags. -/
theorem raiseFlags_enables (x : Byte) (flags : BitVec 3) : raiseFlags x flags &&& 0xF8#8 = x &&& 0xF8#8 := by
  apply BitVec.eq_of_getLsbD_eq
  intro i hi
  simp only [BitVec.getLsbD_and, raiseFlags_getLsbD]
  by_cases h : i < 3
  · interval_cases i <;> simp
  · simp [BitVec.getLsbD_of_ge flags i (by omega)]

/-- The three flags, bit by bit. -/
theorem flagsOf_getLsbD (o : Byte) (pin : Bool) (e : FlagEvents) :
    (flagsOf o pin e).getLsbD 0 = e.portBChange ∧ (flagsOf o pin e).getLsbD 1 = intEdgeAmong o pin e.intPin
      ∧ (flagsOf o pin e).getLsbD 2 = e.timer0Overflow := by
  unfold flagsOf
  generalize intEdgeAmong o pin e.intPin = b
  generalize e.timer0Overflow = a
  generalize e.portBChange = c
  revert a b c
  decide

/-- An edge among the levels is an edge between some two that follow each other. -/
theorem intEdgeAmong_eq_any (o : Byte) (levels : List Bool) : ∀ pin : Bool,
    intEdgeAmong o pin levels = ((pin :: levels).zip levels).any (fun p => intEdgeSeen o p.1 p.2) := by
  induction levels with
  | nil => intro pin; rfl
  | cons level rest ih => intro pin; simp [intEdgeAmong, ih]

/-! ### Landing the flags raised inside a step touches INTCON alone -/

@[simp] theorem landMidFlags_dev (s : State) : s.landMidFlags.dev = s.dev := rfl
@[simp] theorem landMidFlags_program (s : State) : s.landMidFlags.program = s.program := rfl
@[simp] theorem landMidFlags_w (s : State) : s.landMidFlags.w = s.w := rfl
@[simp] theorem landMidFlags_status (s : State) : s.landMidFlags.status = s.status := rfl
@[simp] theorem landMidFlags_optionReg (s : State) : s.landMidFlags.optionReg = s.optionReg := rfl
@[simp] theorem landMidFlags_pcon (s : State) : s.landMidFlags.pcon = s.pcon := rfl
@[simp] theorem landMidFlags_fsr (s : State) : s.landMidFlags.fsr = s.fsr := rfl
@[simp] theorem landMidFlags_pclath (s : State) : s.landMidFlags.pclath = s.pclath := rfl
@[simp] theorem landMidFlags_intcon (s : State) : s.landMidFlags.intcon = raiseFlags s.intcon s.midFlags := rfl
@[simp] theorem landMidFlags_tmr0 (s : State) : s.landMidFlags.tmr0 = s.tmr0 := rfl
@[simp] theorem landMidFlags_ram (s : State) : s.landMidFlags.ram = s.ram := rfl
@[simp] theorem landMidFlags_latches (s : State) : s.landMidFlags.latches = s.latches := rfl
@[simp] theorem landMidFlags_outputs (s : State) : s.landMidFlags.outputs = s.outputs := rfl
@[simp] theorem landMidFlags_pc (s : State) : s.landMidFlags.pc = s.pc := rfl
@[simp] theorem landMidFlags_stack (s : State) : s.landMidFlags.stack = s.stack := rfl
@[simp] theorem landMidFlags_wdtCount (s : State) : s.landMidFlags.wdtCount = s.wdtCount := rfl
@[simp] theorem landMidFlags_prescaler (s : State) : s.landMidFlags.prescaler = s.prescaler := rfl
@[simp] theorem landMidFlags_asleep (s : State) : s.landMidFlags.asleep = s.asleep := rfl
@[simp] theorem landMidFlags_mustExecuteOne (s : State) : s.landMidFlags.mustExecuteOne = s.mustExecuteOne := rfl
@[simp] theorem landMidFlags_intPin (s : State) : s.landMidFlags.intPin = s.intPin := rfl
@[simp] theorem landMidFlags_peripheralReq (s : State) : s.landMidFlags.peripheralReq = s.peripheralReq := rfl
@[simp] theorem landMidFlags_midFlags (s : State) : s.landMidFlags.midFlags = 0#3 := rfl
@[simp] theorem landMidFlags_platformPending (s : State) : s.landMidFlags.platformPending = s.platformPending := rfl
@[simp] theorem landMidFlags_ioIn (s : State) : s.landMidFlags.ioIn = s.ioIn := rfl
@[simp] theorem landMidFlags_inputs (s : State) : s.landMidFlags.inputs = s.inputs := rfl
@[simp] theorem landMidFlags_draws (s : State) : s.landMidFlags.draws = s.draws := rfl
@[simp] theorem landMidFlags_cycles (s : State) : s.landMidFlags.cycles = s.cycles := rfl

/-- With no flag raised inside the step nothing lands. -/
theorem landMidFlags_of_none (s : State) (h : s.midFlags = 0#3) : s.landMidFlags = s := by
  have : raiseFlags s.intcon 0#3 = s.intcon := by
    apply BitVec.eq_of_getLsbD_eq
    intro i _
    simp [raiseFlags_getLsbD]
  cases s
  simp_all [State.landMidFlags]

/-- The landing keeps GIE. -/
@[simp] theorem landMidFlags_gie (s : State) : s.landMidFlags.gie = s.gie := by
  simp only [State.gie, landMidFlags_intcon, raiseFlags_getLsbD]
  simp

@[simp] theorem landFlags_next (t : State) : landFlags (.next t) = .next t.landMidFlags := rfl
@[simp] theorem landFlags_fault (e : Fault) : landFlags (.fault e) = .fault e := rfl
@[simp] theorem landFlags_refused (r : Refusal) : landFlags (.refused r) = .refused r := rfl

/-- A landed outcome is a next state exactly when it was one before. -/
theorem landFlags_next_iff (o : Host.Outcome State Fault Refusal) (t : State) :
    landFlags o = .next t ↔ ∃ u, o = .next u ∧ t = u.landMidFlags := by
  cases o <;> simp [eq_comm]

/-- The enables, GIE among them, are never touched by the environment. -/
theorem takeInput_gie (s : State) : (takeInput s).gie = s.gie := by
  simp only [State.gie, takeInput, raiseFlags_getLsbD]
  simp

/-! ### What one step can do -/

/-- The fetch and decode of an instruction step. -/
theorem instrStep_of_decoded (s : State) (word : InstrWord) (i : Instr) (hw : s.program[s.pc.toNat]? = some word)
    (hi : decode word = .ok i) : instrStep s = exec i (advancePc s) := by
  simp only [instrStep, (progRead_ok_iff s s.pc word).mpr hw, hi]

/-- An instruction step that answers a next state has fetched and executed a decoded instruction. -/
theorem instrStep_next (s t : State) (h : instrStep s = .next t) :
    ∃ word i, s.program[s.pc.toNat]? = some word ∧ decode word = .ok i ∧ exec i (advancePc s) = .next t := by
  unfold instrStep at h
  cases hp : progRead s s.pc with
  | error e => simp [hp] at h
  | ok word =>
    cases hd : decode word with
    | error e => obtain ⟨w⟩ := e; simp [hp, hd] at h
    | ok i => exact ⟨word, i, (progRead_ok_iff _ _ _).mp hp, hd, by simpa [hp, hd] using h⟩

theorem clearMustExecute_of_false (s : State) (h : s.mustExecuteOne = false) : s.clearMustExecute = s := by
  cases s
  simp_all [State.clearMustExecute]

/-- Everything a step that answers a next state can be: a reset, or, with the flags raised inside the step landed on it, a
sleeping step, a wake-up, an interrupt entry, or an instruction (60_exceptions.md R149). -/
theorem step_next_cases (s t : State) (h : step s = .next t) :
    (∃ k, resetDue (takeInput s) (currentInput s) = some k ∧ t = resetTo k (takeInput s))
    ∨ ∃ u, t = u.landMidFlags ∧
      ((s.asleep = true ∧ u = takeInput s)
      ∨ (s.asleep = true ∧ u = wake (takeInput s) (currentInput s))
      ∨ (s.asleep = false ∧ s.mustExecuteOne = false ∧ interruptEntry (takeInput s) = .ok u)
      ∨ (s.asleep = false ∧ instrStep (takeInput s).clearMustExecute = .next u)) := by
  have h : stepWith (takeInput s) (currentInput s) = .next t := h
  unfold stepWith at h
  cases hr : resetDue (takeInput s) (currentInput s) with
  | some k =>
    simp only [hr, Host.Outcome.next.injEq] at h
    exact .inl ⟨k, rfl, h.symm⟩
  | none =>
    rw [hr] at h
    obtain ⟨u, h, htu⟩ := (landFlags_next_iff _ _).mp h
    refine .inr ⟨u, htu, ?_⟩
    simp only [runStep, takeInput_asleep, takeInput_mustExecuteOne] at h
    cases ha : s.asleep with
    | true =>
      simp only [ha, if_true, Host.Outcome.next.injEq] at h
      cases hw : wakeEvent (takeInput s) (currentInput s) with
      | true => exact .inr (.inl ⟨rfl, by simpa [hw] using h.symm⟩)
      | false => exact .inl ⟨rfl, by simpa [hw] using h.symm⟩
    | false =>
      refine .inr (.inr ?_)
      simp only [ha, Bool.false_eq_true, if_false] at h
      cases hm : s.mustExecuteOne with
      | true =>
        simp only [hm, if_true] at h
        exact .inr ⟨rfl, h⟩
      | false =>
        simp only [hm, Bool.false_eq_true, if_false] at h
        split at h
        · exact .inl ⟨rfl, rfl, (finish_next_iff _ _).mp h⟩
        · refine .inr ⟨rfl, ?_⟩
          rw [clearMustExecute_of_false _ (by simpa using hm)]; exact h

/-- A step with a reset due is that reset. -/
theorem step_of_reset (s : State) (k : ResetKind) (h : resetDue (takeInput s) (currentInput s) = some k) :
    step s = .next (resetTo k (takeInput s)) := by
  show stepWith _ _ = _
  unfold stepWith; rw [h]

/-- A step with no reset: sleep or wake-up, then the owed instruction, then an interrupt entry, then an instruction, and at
its end the flags raised inside it. -/
theorem step_of_no_reset (s : State) (h1 : resetDue (takeInput s) (currentInput s) = none) : step s = landFlags
    (if s.asleep then
      .next (if wakeEvent (takeInput s) (currentInput s) then wake (takeInput s) (currentInput s) else takeInput s)
    else if s.mustExecuteOne then instrStep (takeInput s).clearMustExecute
    else if (takeInput s).gie && intPending (takeInput s) then finish (interruptEntry (takeInput s))
    else instrStep (takeInput s)) := by
  show stepWith _ _ = _
  unfold stepWith
  rw [h1]
  simp [runStep]

end Sys2Proof.Machine
end

