-- ==== Sys2Proof/Laws/Instr.lean ====
section
/-! SUPPORT. Everything an instruction that answers a next state can have done, by the shape of the instruction: later
proofs split on these cases and unfold no meaning. -/

namespace Sys2Proof.Machine

/-- A byte-oriented operation that answers a next state. -/
theorem byteOp_next {s t : State} {f : FileField} {d : Dest} {op : Byte → AluOut}
    (h : byteOp s f d op = .next t) :
    accessFault s (operandAddr s f) = none
      ∧ t = (destState (afterRead s (operandAddr s f)) (operandAddr s f) d (op (peek s (operandAddr s f)))).setFlags
        (op (peek s (operandAddr s f))).flags := by
  cases ha : accessFault s (operandAddr s f) with
  | none => rw [byteOp_of_ok _ _ _ _ ha] at h; injection h with h; exact ⟨rfl, h.symm⟩
  | some e => rw [byteOp_of_fault _ _ _ _ e ha] at h; cases h

/-- A byte-oriented operation with a skip that answers a next state. -/
theorem byteOpSkip_next {s t : State} {f : FileField} {d : Dest} {op : Byte → AluOut}
    (h : byteOpSkip s f d op = .next t) :
    accessFault s (operandAddr s f) = none
      ∧ t = (((destState (afterRead s (operandAddr s f)) (operandAddr s f) d (op (peek s (operandAddr s f)))).setFlags
        (op (peek s (operandAddr s f))).flags).skipIf ((op (peek s (operandAddr s f))).result == 0#8)).atMostOneMoreCycle
          s.cycles := by
  cases ha : accessFault s (operandAddr s f) with
  | none => rw [byteOpSkip_of_ok _ _ _ _ ha] at h; injection h with h; exact ⟨rfl, h.symm⟩
  | some e => rw [byteOpSkip_of_fault _ _ _ _ e ha] at h; cases h

/-- A write without a read that answers a next state. -/
theorem storeOp_next {s t : State} {f : FileField} {out : AluOut} (h : storeOp s f out = .next t) :
    accessFault s (operandAddr s f) = none
      ∧ t = (poke s (operandAddr s f) out.result out.flags.isNothing).setFlags out.flags := by
  cases ha : accessFault s (operandAddr s f) with
  | none => rw [storeOp_of_ok _ _ _ ha] at h; injection h with h; exact ⟨rfl, h.symm⟩
  | some e => rw [storeOp_of_fault _ _ _ e ha] at h; cases h

/-- A bit test that answers a next state. -/
theorem bitTest_next {s t : State} {f : FileField} {c : Byte → Bool} (h : bitTest s f c = .next t) :
    accessFault s (operandAddr s f) = none
      ∧ t = (afterRead s (operandAddr s f)).skipIf (c (peek s (operandAddr s f))) := by
  cases ha : accessFault s (operandAddr s f) with
  | none => rw [bitTest_of_ok _ _ _ ha] at h; injection h with h; exact ⟨rfl, h.symm⟩
  | some e => rw [bitTest_of_fault _ _ _ e ha] at h; cases h

/-- A literal operation that answers a next state. -/
theorem literalOp_next {s t : State} {out : AluOut} (h : literalOp s out = .next t) :
    t = (s.setW out.result).setFlags out.flags := by
  injection h with h; exact h.symm

/-- The status bits of an instruction's row of the table are those its result updates. -/
def RowIs (i : Instr) (u : FlagUpdate) : Prop :=
  (statusBitsOf i).c = u.c.isSome ∧ (statusBitsOf i).dc = u.dc.isSome ∧ (statusBitsOf i).z = u.z.isSome
    ∧ (statusBitsOf i).toPd = false

/-- The instruction names a register, delivers a result to it or to W, writes its status bits, and may then skip. -/
def DeliveredTo (i : Instr) (s t : State) : Prop :=
  ∃ (f : FileField) (d : Dest) (out : AluOut),
    fileFieldOf i = some f ∧ accessFault s (operandAddr s f) = none
      ∧ fileWrittenBy i = (if d = .f then some f else none) ∧ (writesW i = true ↔ d = .w) ∧ RowIs i out.flags
      ∧ (t = (destState (afterRead s (operandAddr s f)) (operandAddr s f) d out).setFlags out.flags
        ∨ t = (destState s (operandAddr s f) d out).setFlags out.flags
        ∨ ((i = .decfsz f d ∨ i = .incfsz f d)
          ∧ t = (((destState (afterRead s (operandAddr s f)) (operandAddr s f) d out).setFlags out.flags).skipIf
            (out.result == 0#8)).atMostOneMoreCycle s.cycles))

/-- The instruction tests a bit of a register and writes nothing. -/
def BitTested (i : Instr) (s t : State) : Prop :=
  ∃ (f : FileField) (b : BitField) (c : Bool),
    (i = .btfsc f b ∨ i = .btfss f b) ∧ accessFault s (operandAddr s f) = none
      ∧ t = (afterRead s (operandAddr s f)).skipIf c

/-- The instruction has no register operand and writes W. -/
def LiteralTo (i : Instr) (s t : State) : Prop :=
  ∃ out : AluOut, fileWrittenBy i = none ∧ fileFieldOf i = none ∧ writesW i = true ∧ RowIs i out.flags
    ∧ stackOk i s = true ∧ (∀ k, i ≠ .retlw k) ∧ t = (s.setW out.result).setFlags out.flags

/-- The instruction takes the PC from the stack. -/
def Returned (i : Instr) (s t : State) : Prop :=
  ∃ (a : ProgAddr) (rest : List ProgAddr), s.stack = a :: rest
    ∧ ((i = .ret ∧ t = { s with stack := rest, pc := a, cycles := s.cycles + 1 })
      ∨ (∃ k, i = .retlw k ∧ t = { s with w := k, stack := rest, pc := a, cycles := s.cycles + 1 })
      ∨ (i = .retfie
        ∧ t = { s with stack := rest, pc := a, cycles := s.cycles + 1, intcon := putBit s.intcon 7 true }))

/-- The instruction is one of those that change neither W nor a file register: NOP, CALL, GOTO, CLRWDT, SLEEP. -/
def Controlled (i : Instr) (s t : State) : Prop :=
  (i = .nop ∧ t = s)
    ∨ (∃ k, i = .call k ∧ s.stack.length < s.dev.stackDepth
      ∧ t = ({ s with stack := s.pc :: s.stack } : State).loadPc (pageTarget s k))
    ∨ (∃ k, i = .goto k ∧ t = s.loadPc (pageTarget s k))
    ∨ (i = .clrwdt ∧ t = s.clearWdt.setStatus (putToPd s.status true true))
    ∨ (i = .sleep ∧ t = { s.clearWdt.setStatus (putToPd s.status true false) with asleep := true })

/-- Everything an instruction that answers a next state can have done. -/
theorem exec_next_cases (i : Instr) (s t : State) (h : exec i s = .next t) :
    DeliveredTo i s t ∨ BitTested i s t ∨ LiteralTo i s t ∨ Returned i s t ∨ Controlled i s t := by
  cases i
  case nop => injection h with h; exact .inr (.inr (.inr (.inr (.inl ⟨rfl, h.symm⟩))))
  case goto k => injection h with h; exact .inr (.inr (.inr (.inr (.inr (.inr (.inl ⟨k, rfl, h.symm⟩))))))
  case clrwdt => injection h with h; exact .inr (.inr (.inr (.inr (.inr (.inr (.inr (.inl ⟨rfl, h.symm⟩)))))))
  case sleep => injection h with h; exact .inr (.inr (.inr (.inr (.inr (.inr (.inr (.inr ⟨rfl, h.symm⟩)))))))
  case call k =>
    have h : finish _ = _ := h
    rw [finish_next_iff] at h
    cases hp : push s s.pc with
    | error e => simp [hp, Except.map] at h
    | ok r =>
      obtain ⟨h1, h2⟩ := (push_ok_iff _ _ _).mp hp
      simp only [hp, Except.map, Except.ok.injEq] at h
      exact .inr (.inr (.inr (.inr (.inr (.inl ⟨k, rfl, h1, by rw [← h, h2]⟩)))))
  case ret =>
    obtain ⟨a, rest, h1, h2⟩ := (returnToCaller_ok_iff _ _).mp ((finish_next_iff _ _).mp h)
    exact .inr (.inr (.inr (.inl ⟨a, rest, h1, .inl ⟨rfl, h2⟩⟩)))
  case retlw k =>
    obtain ⟨a, rest, h1, h2⟩ := (returnToCaller_ok_iff _ _).mp ((finish_next_iff _ _).mp h)
    exact .inr (.inr (.inr (.inl ⟨a, rest, h1, .inr (.inl ⟨k, rfl, h2⟩)⟩)))
  case retfie =>
    obtain ⟨a, rest, h1, h2⟩ := (interruptReturn_ok_iff _ _).mp ((finish_next_iff _ _).mp h)
    exact .inr (.inr (.inr (.inl ⟨a, rest, h1, .inr (.inr ⟨rfl, h2⟩)⟩)))
  case btfsc f b =>
    obtain ⟨h1, h2⟩ := bitTest_next (c := fun x => !x.getLsbD b.toNat) h
    exact .inr (.inl ⟨f, b, _, .inl rfl, h1, h2⟩)
  case btfss f b =>
    obtain ⟨h1, h2⟩ := bitTest_next (c := fun x => x.getLsbD b.toNat) h
    exact .inr (.inl ⟨f, b, _, .inr rfl, h1, h2⟩)
  case bcf f b =>
    obtain ⟨h1, h2⟩ := byteOp_next (d := .f) (op := fun x => plainOut (x &&& ~~~(bitMask b))) h
    exact .inl ⟨f, .f, _, rfl, h1, rfl, by simp [writesW], ⟨rfl, rfl, rfl, rfl⟩, .inl h2⟩
  case bsf f b =>
    obtain ⟨h1, h2⟩ := byteOp_next (d := .f) (op := fun x => plainOut (x ||| (bitMask b))) h
    exact .inl ⟨f, .f, _, rfl, h1, rfl, by simp [writesW], ⟨rfl, rfl, rfl, rfl⟩, .inl h2⟩
  case clrf f =>
    obtain ⟨h1, h2⟩ := storeOp_next (out := zeroOut 0x00#8) h
    exact .inl ⟨f, .f, _, rfl, h1, rfl, by simp [writesW], ⟨rfl, rfl, rfl, rfl⟩, .inr (.inl h2)⟩
  case movwf f =>
    obtain ⟨h1, h2⟩ := storeOp_next (out := plainOut s.w) h
    exact .inl ⟨f, .f, _, rfl, h1, rfl, by simp [writesW], ⟨rfl, rfl, rfl, rfl⟩, .inr (.inl h2)⟩
  case decfsz f d =>
    obtain ⟨h1, h2⟩ := byteOpSkip_next (op := fun x => plainOut (dec8 x)) h
    exact .inl ⟨f, d, _, rfl, h1, by cases d <;> rfl, by cases d <;> simp [writesW], ⟨rfl, rfl, rfl, rfl⟩,
      .inr (.inr ⟨.inl rfl, h2⟩)⟩
  case incfsz f d =>
    obtain ⟨h1, h2⟩ := byteOpSkip_next (op := fun x => plainOut (inc8 x)) h
    exact .inl ⟨f, d, _, rfl, h1, by cases d <;> rfl, by cases d <;> simp [writesW], ⟨rfl, rfl, rfl, rfl⟩,
      .inr (.inr ⟨.inr rfl, h2⟩)⟩
  case clrw =>
    exact .inr (.inr (.inl ⟨zeroOut 0x00#8, rfl, rfl, rfl, ⟨rfl, rfl, rfl, rfl⟩, rfl, by simp, literalOp_next h⟩))
  case addlw k =>
    exact .inr (.inr (.inl ⟨add8 s.w k, rfl, rfl, rfl, ⟨rfl, rfl, rfl, rfl⟩, rfl, by simp, literalOp_next h⟩))
  case andlw k =>
    exact .inr (.inr (.inl ⟨zeroOut (s.w &&& k), rfl, rfl, rfl, ⟨rfl, rfl, rfl, rfl⟩, rfl, by simp, literalOp_next h⟩))
  case iorlw k =>
    exact .inr (.inr (.inl ⟨zeroOut (s.w ||| k), rfl, rfl, rfl, ⟨rfl, rfl, rfl, rfl⟩, rfl, by simp, literalOp_next h⟩))
  case xorlw k =>
    exact .inr (.inr (.inl ⟨zeroOut (s.w ^^^ k), rfl, rfl, rfl, ⟨rfl, rfl, rfl, rfl⟩, rfl, by simp, literalOp_next h⟩))
  case movlw k =>
    exact .inr (.inr (.inl ⟨plainOut k, rfl, rfl, rfl, ⟨rfl, rfl, rfl, rfl⟩, rfl, by simp, literalOp_next h⟩))
  case sublw k =>
    exact .inr (.inr (.inl ⟨sub8 k s.w, rfl, rfl, rfl, ⟨rfl, rfl, rfl, rfl⟩, rfl, by simp, literalOp_next h⟩))
  case addwf f d =>
    obtain ⟨h1, h2⟩ := byteOp_next (op := fun x => add8 s.w x) h
    exact .inl ⟨f, d, _, rfl, h1, by cases d <;> rfl, by cases d <;> simp [writesW], ⟨rfl, rfl, rfl, rfl⟩, .inl h2⟩
  case andwf f d =>
    obtain ⟨h1, h2⟩ := byteOp_next (op := fun x => zeroOut (s.w &&& x)) h
    exact .inl ⟨f, d, _, rfl, h1, by cases d <;> rfl, by cases d <;> simp [writesW], ⟨rfl, rfl, rfl, rfl⟩, .inl h2⟩
  case comf f d =>
    obtain ⟨h1, h2⟩ := byteOp_next (op := fun x => zeroOut (~~~x)) h
    exact .inl ⟨f, d, _, rfl, h1, by cases d <;> rfl, by cases d <;> simp [writesW], ⟨rfl, rfl, rfl, rfl⟩, .inl h2⟩
  case decf f d =>
    obtain ⟨h1, h2⟩ := byteOp_next (op := fun x => zeroOut (dec8 x)) h
    exact .inl ⟨f, d, _, rfl, h1, by cases d <;> rfl, by cases d <;> simp [writesW], ⟨rfl, rfl, rfl, rfl⟩, .inl h2⟩
  case incf f d =>
    obtain ⟨h1, h2⟩ := byteOp_next (op := fun x => zeroOut (inc8 x)) h
    exact .inl ⟨f, d, _, rfl, h1, by cases d <;> rfl, by cases d <;> simp [writesW], ⟨rfl, rfl, rfl, rfl⟩, .inl h2⟩
  case iorwf f d =>
    obtain ⟨h1, h2⟩ := byteOp_next (op := fun x => zeroOut (s.w ||| x)) h
    exact .inl ⟨f, d, _, rfl, h1, by cases d <;> rfl, by cases d <;> simp [writesW], ⟨rfl, rfl, rfl, rfl⟩, .inl h2⟩
  case movf f d =>
    obtain ⟨h1, h2⟩ := byteOp_next (op := fun x => zeroOut x) h
    exact .inl ⟨f, d, _, rfl, h1, by cases d <;> rfl, by cases d <;> simp [writesW], ⟨rfl, rfl, rfl, rfl⟩, .inl h2⟩
  case rlf f d =>
    obtain ⟨h1, h2⟩ := byteOp_next (op := fun x => rotateLeft x s.carry) h
    exact .inl ⟨f, d, _, rfl, h1, by cases d <;> rfl, by cases d <;> simp [writesW], ⟨rfl, rfl, rfl, rfl⟩, .inl h2⟩
  case rrf f d =>
    obtain ⟨h1, h2⟩ := byteOp_next (op := fun x => rotateRight x s.carry) h
    exact .inl ⟨f, d, _, rfl, h1, by cases d <;> rfl, by cases d <;> simp [writesW], ⟨rfl, rfl, rfl, rfl⟩, .inl h2⟩
  case subwf f d =>
    obtain ⟨h1, h2⟩ := byteOp_next (op := fun x => sub8 x s.w) h
    exact .inl ⟨f, d, _, rfl, h1, by cases d <;> rfl, by cases d <;> simp [writesW], ⟨rfl, rfl, rfl, rfl⟩, .inl h2⟩
  case swapf f d =>
    obtain ⟨h1, h2⟩ := byteOp_next (op := fun x => plainOut (swapNibbles x)) h
    exact .inl ⟨f, d, _, rfl, h1, by cases d <;> rfl, by cases d <;> simp [writesW], ⟨rfl, rfl, rfl, rfl⟩, .inl h2⟩
  case xorwf f d =>
    obtain ⟨h1, h2⟩ := byteOp_next (op := fun x => zeroOut (s.w ^^^ x)) h
    exact .inl ⟨f, d, _, rfl, h1, by cases d <;> rfl, by cases d <;> simp [writesW], ⟨rfl, rfl, rfl, rfl⟩, .inl h2⟩

end Sys2Proof.Machine
end

