-- ==== Sys2Proof/Laws/PerInstr.lean ====
section
/-! SUPPORT. A family of lemmas, one per constructor of Instr: the encoder's word of an instruction is admitted by the
instruction's own row of the opcode map of 30_encoding.md R93. -/

namespace Sys2Proof.Laws

/-- The instruction's own row admits its canonical word (30_encoding.md R93). -/
def EncodingRow.Statement (i : Instr) : Prop :=
  (opcodeRows[i.rowIndex]?).any (fun r => r.admits (encode i)) = true

theorem EncodingRow.addwf (f : FileField) (d : Dest) : EncodingRow.Statement (.addwf f d) := by
  cases d <;> revert f <;> unfold EncodingRow.Statement <;> decide +kernel

theorem EncodingRow.andwf (f : FileField) (d : Dest) : EncodingRow.Statement (.andwf f d) := by
  cases d <;> revert f <;> unfold EncodingRow.Statement <;> decide +kernel

theorem EncodingRow.clrf (f : FileField) : EncodingRow.Statement (.clrf f) := by
  revert f; unfold EncodingRow.Statement; decide +kernel

theorem EncodingRow.clrw : EncodingRow.Statement .clrw := by
  unfold EncodingRow.Statement; decide +kernel

theorem EncodingRow.comf (f : FileField) (d : Dest) : EncodingRow.Statement (.comf f d) := by
  cases d <;> revert f <;> unfold EncodingRow.Statement <;> decide +kernel

theorem EncodingRow.decf (f : FileField) (d : Dest) : EncodingRow.Statement (.decf f d) := by
  cases d <;> revert f <;> unfold EncodingRow.Statement <;> decide +kernel

theorem EncodingRow.decfsz (f : FileField) (d : Dest) : EncodingRow.Statement (.decfsz f d) := by
  cases d <;> revert f <;> unfold EncodingRow.Statement <;> decide +kernel

theorem EncodingRow.incf (f : FileField) (d : Dest) : EncodingRow.Statement (.incf f d) := by
  cases d <;> revert f <;> unfold EncodingRow.Statement <;> decide +kernel

theorem EncodingRow.incfsz (f : FileField) (d : Dest) : EncodingRow.Statement (.incfsz f d) := by
  cases d <;> revert f <;> unfold EncodingRow.Statement <;> decide +kernel

theorem EncodingRow.iorwf (f : FileField) (d : Dest) : EncodingRow.Statement (.iorwf f d) := by
  cases d <;> revert f <;> unfold EncodingRow.Statement <;> decide +kernel

theorem EncodingRow.movf (f : FileField) (d : Dest) : EncodingRow.Statement (.movf f d) := by
  cases d <;> revert f <;> unfold EncodingRow.Statement <;> decide +kernel

theorem EncodingRow.movwf (f : FileField) : EncodingRow.Statement (.movwf f) := by
  revert f; unfold EncodingRow.Statement; decide +kernel

theorem EncodingRow.nop : EncodingRow.Statement .nop := by
  unfold EncodingRow.Statement; decide +kernel

theorem EncodingRow.rlf (f : FileField) (d : Dest) : EncodingRow.Statement (.rlf f d) := by
  cases d <;> revert f <;> unfold EncodingRow.Statement <;> decide +kernel

theorem EncodingRow.rrf (f : FileField) (d : Dest) : EncodingRow.Statement (.rrf f d) := by
  cases d <;> revert f <;> unfold EncodingRow.Statement <;> decide +kernel

theorem EncodingRow.subwf (f : FileField) (d : Dest) : EncodingRow.Statement (.subwf f d) := by
  cases d <;> revert f <;> unfold EncodingRow.Statement <;> decide +kernel

theorem EncodingRow.swapf (f : FileField) (d : Dest) : EncodingRow.Statement (.swapf f d) := by
  cases d <;> revert f <;> unfold EncodingRow.Statement <;> decide +kernel

theorem EncodingRow.xorwf (f : FileField) (d : Dest) : EncodingRow.Statement (.xorwf f d) := by
  cases d <;> revert f <;> unfold EncodingRow.Statement <;> decide +kernel

theorem EncodingRow.bcf (f : FileField) (b : BitField) : EncodingRow.Statement (.bcf f b) := by
  revert f b; unfold EncodingRow.Statement; decide +kernel

theorem EncodingRow.bsf (f : FileField) (b : BitField) : EncodingRow.Statement (.bsf f b) := by
  revert f b; unfold EncodingRow.Statement; decide +kernel

theorem EncodingRow.btfsc (f : FileField) (b : BitField) : EncodingRow.Statement (.btfsc f b) := by
  revert f b; unfold EncodingRow.Statement; decide +kernel

theorem EncodingRow.btfss (f : FileField) (b : BitField) : EncodingRow.Statement (.btfss f b) := by
  revert f b; unfold EncodingRow.Statement; decide +kernel

theorem EncodingRow.addlw (k : Byte) : EncodingRow.Statement (.addlw k) := by
  revert k; unfold EncodingRow.Statement; decide +kernel

theorem EncodingRow.andlw (k : Byte) : EncodingRow.Statement (.andlw k) := by
  revert k; unfold EncodingRow.Statement; decide +kernel

theorem EncodingRow.call (k : BitVec 11) : EncodingRow.Statement (.call k) := by
  revert k; unfold EncodingRow.Statement; decide +kernel

theorem EncodingRow.clrwdt : EncodingRow.Statement .clrwdt := by
  unfold EncodingRow.Statement; decide +kernel

theorem EncodingRow.goto (k : BitVec 11) : EncodingRow.Statement (.goto k) := by
  revert k; unfold EncodingRow.Statement; decide +kernel

theorem EncodingRow.iorlw (k : Byte) : EncodingRow.Statement (.iorlw k) := by
  revert k; unfold EncodingRow.Statement; decide +kernel

theorem EncodingRow.movlw (k : Byte) : EncodingRow.Statement (.movlw k) := by
  revert k; unfold EncodingRow.Statement; decide +kernel

theorem EncodingRow.retfie : EncodingRow.Statement .retfie := by
  unfold EncodingRow.Statement; decide +kernel

theorem EncodingRow.retlw (k : Byte) : EncodingRow.Statement (.retlw k) := by
  revert k; unfold EncodingRow.Statement; decide +kernel

theorem EncodingRow.ret : EncodingRow.Statement .ret := by
  unfold EncodingRow.Statement; decide +kernel

theorem EncodingRow.sleep : EncodingRow.Statement .sleep := by
  unfold EncodingRow.Statement; decide +kernel

theorem EncodingRow.sublw (k : Byte) : EncodingRow.Statement (.sublw k) := by
  revert k; unfold EncodingRow.Statement; decide +kernel

theorem EncodingRow.xorlw (k : Byte) : EncodingRow.Statement (.xorlw k) := by
  revert k; unfold EncodingRow.Statement; decide +kernel

end Sys2Proof.Laws
end

