-- ==== Sys2Proof/Tests/Slice0.lean ====
section
/-! SUPPORT. Tests of the model against the spec's own vectors (95_test_vectors.md), the words of 30_encoding.md R93 written
out bit by bit, ill-formed terms that the checks refuse, and for each statement with hypotheses a concrete state that
meets them. -/

namespace Sys2Proof.Tests

set_option Elab.async false

open Sys2Proof Sys2Proof.Machine

/-! ### Decoding: one word for every row of the opcode map, bit 13 first (30_encoding.md R86, R93, 95_test_vectors.md 1.1) -/

theorem test_decode_addwf : decode 0b00011110100000#14 = .ok (.addwf 0x20#7 .f) := by decide

theorem test_decode_andwf : decode 0b00010100100000#14 = .ok (.andwf 0x20#7 .w) := by decide

theorem test_decode_clrf : decode 0b00000110100000#14 = .ok (.clrf 0x20#7) := by decide

theorem test_decode_clrw : decode 0b00000100000000#14 = .ok (.clrw) := by decide

theorem test_decode_comf : decode 0b00100110100000#14 = .ok (.comf 0x20#7 .f) := by decide

theorem test_decode_decf : decode 0b00001110100000#14 = .ok (.decf 0x20#7 .f) := by decide

theorem test_decode_decfsz : decode 0b00101110100000#14 = .ok (.decfsz 0x20#7 .f) := by decide

theorem test_decode_incf : decode 0b00101010100000#14 = .ok (.incf 0x20#7 .f) := by decide

theorem test_decode_incfsz : decode 0b00111110100000#14 = .ok (.incfsz 0x20#7 .f) := by decide

theorem test_decode_iorwf : decode 0b00010000100000#14 = .ok (.iorwf 0x20#7 .w) := by decide

theorem test_decode_movf : decode 0b00100000100000#14 = .ok (.movf 0x20#7 .w) := by decide

theorem test_decode_movwf : decode 0b00000010100000#14 = .ok (.movwf 0x20#7) := by decide

theorem test_decode_nop : decode 0b00000000000000#14 = .ok (.nop) := by decide

theorem test_decode_rlf : decode 0b00110110100000#14 = .ok (.rlf 0x20#7 .f) := by decide

theorem test_decode_rrf : decode 0b00110000100000#14 = .ok (.rrf 0x20#7 .w) := by decide

theorem test_decode_subwf : decode 0b00001010100000#14 = .ok (.subwf 0x20#7 .f) := by decide

theorem test_decode_swapf : decode 0b00111000100000#14 = .ok (.swapf 0x20#7 .w) := by decide

theorem test_decode_xorwf : decode 0b00011010100000#14 = .ok (.xorwf 0x20#7 .f) := by decide

theorem test_decode_bcf : decode 0b01001110100000#14 = .ok (.bcf 0x20#7 7#3) := by decide

theorem test_decode_bsf : decode 0b01011110100000#14 = .ok (.bsf 0x20#7 7#3) := by decide

theorem test_decode_btfsc : decode 0b01100100000011#14 = .ok (.btfsc 0x03#7 2#3) := by decide

theorem test_decode_btfss : decode 0b01110000000011#14 = .ok (.btfss 0x03#7 0#3) := by decide

theorem test_decode_addlw : decode 0b11111000010101#14 = .ok (.addlw 0x15#8) := by decide

theorem test_decode_andlw : decode 0b11100101011111#14 = .ok (.andlw 0x5F#8) := by decide

theorem test_decode_call : decode 0b10000100100011#14 = .ok (.call 0x123#11) := by decide

theorem test_decode_clrwdt : decode 0b00000001100100#14 = .ok (.clrwdt) := by decide

theorem test_decode_goto : decode 0b10100000000101#14 = .ok (.goto 0x005#11) := by decide

theorem test_decode_iorlw : decode 0b11100000110101#14 = .ok (.iorlw 0x35#8) := by decide

theorem test_decode_movlw : decode 0b11000001011010#14 = .ok (.movlw 0x5A#8) := by decide

theorem test_decode_retfie : decode 0b00000000001001#14 = .ok (.retfie) := by decide

theorem test_decode_retlw : decode 0b11010000000111#14 = .ok (.retlw 0x07#8) := by decide

theorem test_decode_return : decode 0b00000000001000#14 = .ok (.ret) := by decide

theorem test_decode_sleep : decode 0b00000001100011#14 = .ok (.sleep) := by decide

theorem test_decode_sublw : decode 0b11110000000010#14 = .ok (.sublw 0x02#8) := by decide

theorem test_decode_xorlw : decode 0b11101010101111#14 = .ok (.xorlw 0xAF#8) := by decide

/-! The don't-care bits at 1 (30_encoding.md R92, 95_test_vectors.md 2.1, 2.3), and undefined words (2.8). -/

theorem test_decode_clrw_017F : decode 0x017F#14 = .ok (.clrw) := by decide

theorem test_decode_nop_0060 : decode 0x0060#14 = .ok (.nop) := by decide

theorem test_decode_addlw_3F15 : decode 0x3F15#14 = .ok (.addlw 0x15#8) := by decide

theorem test_decode_sublw_3D02 : decode 0x3D02#14 = .ok (.sublw 0x02#8) := by decide

theorem test_decode_movlw_335A : decode 0x335A#14 = .ok (.movlw 0x5A#8) := by decide

theorem test_decode_retlw_3707 : decode 0x3707#14 = .ok (.retlw 0x07#8) := by decide

theorem test_decode_refuses_0001 : decode 0x0001#14 = .error (.undefinedWord 0x0001#14) := by decide

theorem test_decode_refuses_0062 : decode 0x0062#14 = .error (.undefinedWord 0x0062#14) := by decide

theorem test_decode_refuses_0065 : decode 0x0065#14 = .error (.undefinedWord 0x0065#14) := by decide

theorem test_decode_refuses_007F : decode 0x007F#14 = .error (.undefinedWord 0x007F#14) := by decide

theorem test_decode_refuses_3B00 : decode 0x3B00#14 = .error (.undefinedWord 0x3B00#14) := by decide

theorem test_decode_refuses_3BFF : decode 0x3BFF#14 = .error (.undefinedWord 0x3BFF#14) := by decide

theorem test_decodeTableWord_numbers_from_bit_0 : decodeTableWord 16 0x07A0 = some (.addwf 0x20#7 .f) := by decide

theorem test_decodeTableWord_refuses_a_fifteenth_bit : decodeTableWord 16 0x47A0 = none := by decide

theorem test_encode_writes_zero_for_dont_care : encode (.movlw 0x5A#8) = 0x305A#14 := by decide

/-! ### Each check refuses an ill-formed term -/

theorem test_wordDefined_refuses_0001 : wordDefined 0x0001#14 = false := by decide

theorem test_wordDefined_refuses_3B00 : wordDefined 0x3B00#14 = false := by decide

theorem test_fileMapIsMap_refuses_two_cells_at_one_address :
    Device.fileMapIsMap { Device.default with
      fileMapChanges := [(0x025#9, .unimplemented), (0x025#9, .gpr 0x025#9)] } = false := by decide

theorem test_statusInEveryBank_refuses_a_cell_over_status :
    Device.statusInEveryBank { Device.default with fileMapChanges := [(0x083#9, .gpr 0x083#9)] } = false := by decide

theorem test_changesInBanks_refuses_bank_2_of_two :
    Device.changesInBanks { Device.default with banks := .two, fileMapChanges := [(0x120#9, .gpr 0x020#9)] } = false := by
  decide

theorem test_deviceWf_refuses_the_three :
    Device.wf { Device.default with fileMapChanges := [(0x183#9, .unimplemented)] } = false := by decide

theorem test_deviceWf_accepts_the_default : Device.wf Device.default = true := by decide

theorem test_programFits_refuses_2049_words_with_11_bits :
    programFits { Device.default with pcWidth := .bits11 } (List.replicate 2049 0x0000#14) = false := by decide +kernel

theorem test_wellFormed_has_nothing_to_refuse : (Instr.bcf 0x7F#7 7#3).wellFormed = true := by decide

theorem test_memoryWf_refuses_an_unlisted_value : Memory.wf [(0x020, 0x00#8)] = false := by decide

theorem test_memoryWf_refuses_falling_addresses : Memory.wf [(0x021, 0x01#8), (0x020, 0x01#8)] = false := by decide

/-! ### One step of each instruction (95_test_vectors.md 2.1 to 2.7) -/

/-- The "before" state of 95_test_vectors.md: PC = 0100h, W, STATUS, and the listed cells. -/
def at0100 (w status : Byte) (ram : Memory) : State :=
  { State.reset with pc := 0x0100#13, w := w, status := status, ram := ram }

/-- One step of an instruction word at the PC, and a check of the state after it. -/
def after (s : State) (word : Nat) (check : State → Bool) : Bool :=
  match step (s.withFetchWord 14 word) with
  | .next t => check t
  | .fault _ => false
  | .refused _ => false

theorem test_addwf_wraps_with_every_carry :
    after (at0100 0x01#8 0b00011000#8 [(0x020, 0xFF#8)]) 0x07A0
      (fun t => t.ram.read 0x020 == 0x00#8 && t.w == 0x01#8 && t.status == 0b00011111#8) = true := by
  decide +kernel

theorem test_addwf_to_status_writes_flags_from_the_sum :
    after (at0100 0x21#8 0b00011111#8 []) 0x0783 (fun t => t.status == 0b01011010#8 && t.w == 0x21#8) = true := by
  decide +kernel

theorem test_andwf_to_w_leaves_carries :
    after (at0100 0x17#8 0b00011011#8 [(0x020, 0xC2#8)]) 0x0520
      (fun t => t.w == 0x02#8 && t.ram.read 0x020 == 0xC2#8 && t.status == 0b00011011#8) = true := by
  decide +kernel

theorem test_andwf_to_f_zero :
    after (at0100 0xF0#8 0b00011000#8 [(0x020, 0x0F#8)]) 0x05A0
      (fun t => t.ram.read 0x020 == 0x00#8 && t.status == 0b00011100#8) = true := by
  decide +kernel

theorem test_clrf_sets_z :
    after (at0100 0x55#8 0b00011000#8 [(0x020, 0x5A#8)]) 0x01A0
      (fun t => t.ram.read 0x020 == 0x00#8 && t.w == 0x55#8 && t.status == 0b00011100#8) = true := by
  decide +kernel

theorem test_clrf_status_is_000u_u1uu :
    after (at0100 0x00#8 0b11111011#8 []) 0x0183 (fun t => t.status == 0b00011111#8) = true := by
  decide +kernel

theorem test_clrw_sets_z_alone :
    after (at0100 0x5A#8 0b00011011#8 []) 0x0103 (fun t => t.w == 0x00#8 && t.status == 0b00011111#8) = true := by
  decide +kernel

theorem test_comf_to_f :
    after (at0100 0x00#8 0b00011000#8 [(0x020, 0x13#8)]) 0x09A0
      (fun t => t.ram.read 0x020 == 0xEC#8 && t.status == 0b00011000#8) = true := by
  decide +kernel

theorem test_comf_reads_f_and_writes_w :
    after (at0100 0x00#8 0b00011000#8 [(0x020, 0xFF#8)]) 0x0920
      (fun t => t.w == 0x00#8 && t.ram.read 0x020 == 0xFF#8 && t.status == 0b00011100#8) = true := by
  decide +kernel

theorem test_decf_borrow_is_not_recorded :
    after (at0100 0x00#8 0b00011001#8 []) 0x03A0
      (fun t => t.ram.read 0x020 == 0xFF#8 && t.status == 0b00011001#8) = true := by
  decide +kernel

theorem test_decf_to_zero :
    after (at0100 0x00#8 0b00011000#8 [(0x020, 0x01#8)]) 0x03A0
      (fun t => t.ram.read 0x020 == 0x00#8 && t.status == 0b00011100#8) = true := by
  decide +kernel

theorem test_decfsz_skips_at_zero_without_z :
    after (at0100 0x00#8 0b00011000#8 [(0x020, 0x01#8)]) 0x0BA0
      (fun t => t.ram.read 0x020 == 0x00#8 && t.status == 0b00011000#8 && t.pc == 0x0102#13 && t.cycles == 2) = true := by
  decide +kernel

theorem test_decfsz_to_w_skips_and_keeps_f :
    after (at0100 0x77#8 0b00011000#8 [(0x020, 0x01#8)]) 0x0B20
      (fun t => t.w == 0x00#8 && t.ram.read 0x020 == 0x01#8 && t.pc == 0x0102#13) = true := by
  decide +kernel

theorem test_incf_wraps_and_sets_z :
    after (at0100 0x00#8 0b00011000#8 [(0x020, 0xFF#8)]) 0x0AA0
      (fun t => t.ram.read 0x020 == 0x00#8 && t.status == 0b00011100#8) = true := by
  decide +kernel

theorem test_incf_of_fsr_in_its_own_register :
    after { at0100 0x00#8 0b00011000#8 [] with fsr := 0xFF#8 } 0x0A84
      (fun t => t.fsr == 0x00#8 && t.status == 0b00011100#8) = true := by
  decide +kernel

theorem test_incfsz_skips_at_zero :
    after (at0100 0x00#8 0b00011000#8 [(0x020, 0xFF#8)]) 0x0FA0
      (fun t => t.ram.read 0x020 == 0x00#8 && t.pc == 0x0102#13 && t.cycles == 2) = true := by
  decide +kernel

theorem test_incfsz_goes_on_otherwise :
    after (at0100 0x00#8 0b00011000#8 []) 0x0FA0
      (fun t => t.ram.read 0x020 == 0x01#8 && t.pc == 0x0101#13 && t.cycles == 1) = true := by
  decide +kernel

theorem test_iorwf_to_w :
    after (at0100 0x91#8 0b00011000#8 [(0x020, 0x13#8)]) 0x0420
      (fun t => t.w == 0x93#8 && t.status == 0b00011000#8) = true := by
  decide +kernel

theorem test_iorwf_of_zeros_sets_z :
    after (at0100 0x00#8 0b00011000#8 []) 0x0420 (fun t => t.w == 0x00#8 && t.status == 0b00011100#8) = true := by
  decide +kernel

theorem test_movf_to_w_sets_z :
    after (at0100 0x11#8 0b00011000#8 []) 0x0820 (fun t => t.w == 0x00#8 && t.status == 0b00011100#8) = true := by
  decide +kernel

theorem test_movf_of_a_port_writes_the_pins_back :
    after { at0100 0x00#8 0b00011000#8 [] with inputs := [{ StepInput.quiet with ioRead := some 0xFE#8 }] } 0x0886
      (fun t => t.outputs == [(0x006#9, 0xFE#8)] && t.latches.read 0x006 == 0xFE#8) = true := by
  decide +kernel

theorem test_movwf_sets_no_flag :
    after (at0100 0x4F#8 0b00011100#8 [(0x020, 0xFF#8)]) 0x00A0
      (fun t => t.ram.read 0x020 == 0x4F#8 && t.status == 0b00011100#8) = true := by
  decide +kernel

theorem test_movwf_of_pcl_takes_pclath :
    after { at0100 0x40#8 0b00011000#8 [] with pclath := 0x03#5 } 0x0082
      (fun t => t.pc == 0x0340#13 && t.cycles == 2) = true := by
  decide +kernel

theorem test_nop_moves_on :
    after (at0100 0x12#8 0b00011111#8 []) 0x0060
      (fun t => t.w == 0x12#8 && t.status == 0b00011111#8 && t.pc == 0x0101#13 && t.cycles == 1) = true := by
  decide +kernel

theorem test_rlf_leaves_z :
    after (at0100 0x00#8 0b00011000#8 [(0x020, 0x80#8)]) 0x0DA0
      (fun t => t.ram.read 0x020 == 0x00#8 && t.status == 0b00011001#8) = true := by
  decide +kernel

theorem test_rlf_takes_c_in :
    after (at0100 0x00#8 0b00011001#8 [(0x020, 0x01#8)]) 0x0D20
      (fun t => t.w == 0x03#8 && t.status == 0b00011000#8) = true := by
  decide +kernel

theorem test_rrf_takes_c_in :
    after (at0100 0x00#8 0b00011001#8 [(0x020, 0x01#8)]) 0x0CA0
      (fun t => t.ram.read 0x020 == 0x80#8 && t.status == 0b00011001#8) = true := by
  decide +kernel

theorem test_rrf_to_w :
    after (at0100 0x00#8 0b00011000#8 [(0x020, 0xE6#8)]) 0x0C20
      (fun t => t.w == 0x73#8 && t.ram.read 0x020 == 0xE6#8 && t.status == 0b00011000#8) = true := by
  decide +kernel

theorem test_subwf_is_f_minus_w :
    after (at0100 0x02#8 0b00011000#8 [(0x020, 0x01#8)]) 0x02A0
      (fun t => t.ram.read 0x020 == 0xFF#8 && t.status == 0b00011000#8) = true := by
  decide +kernel

theorem test_subwf_of_w_zero_borrows_nothing :
    after (at0100 0x00#8 0b00011000#8 [(0x020, 0x35#8)]) 0x0220
      (fun t => t.w == 0x35#8 && t.status == 0b00011011#8) = true := by
  decide +kernel

theorem test_swapf_to_w :
    after (at0100 0x00#8 0b00011111#8 [(0x020, 0xA5#8)]) 0x0E20
      (fun t => t.w == 0x5A#8 && t.status == 0b00011111#8) = true := by
  decide +kernel

theorem test_swapf_of_status_writes_every_writable_bit :
    after (at0100 0x00#8 0b00110101#8 []) 0x0E83 (fun t => t.status == 0b01010011#8) = true := by
  decide +kernel

theorem test_xorwf_to_f :
    after (at0100 0xB5#8 0b00011000#8 [(0x020, 0xAF#8)]) 0x06A0
      (fun t => t.ram.read 0x020 == 0x1A#8 && t.status == 0b00011000#8) = true := by
  decide +kernel

theorem test_xorwf_equal_sets_z :
    after (at0100 0x5A#8 0b00011000#8 [(0x020, 0x5A#8)]) 0x0620
      (fun t => t.w == 0x00#8 && t.status == 0b00011100#8) = true := by
  decide +kernel

theorem test_bcf_bit_7 :
    after (at0100 0x00#8 0b00011000#8 [(0x020, 0xC7#8)]) 0x13A0
      (fun t => t.ram.read 0x020 == 0x47#8 && t.status == 0b00011000#8) = true := by
  decide +kernel

theorem test_bcf_cannot_clear_to :
    after (at0100 0x00#8 0b00011000#8 []) 0x1203 (fun t => t.status == 0b00011000#8) = true := by
  decide +kernel

theorem test_bsf_bit_7 :
    after (at0100 0x00#8 0b00011000#8 [(0x020, 0x0A#8)]) 0x17A0
      (fun t => t.ram.read 0x020 == 0x8A#8 && t.status == 0b00011000#8) = true := by
  decide +kernel

theorem test_bsf_of_status_switches_the_bank :
    after (at0100 0x00#8 0b00011000#8 []) 0x1683 (fun t => t.status == 0b00111000#8) = true := by
  decide +kernel

theorem test_btfsc_skips_on_clear :
    after (at0100 0x00#8 0b00011000#8 [(0x020, 0xFB#8)]) 0x1920
      (fun t => t.pc == 0x0102#13 && t.cycles == 2) = true := by
  decide +kernel

theorem test_btfsc_goes_on_on_set :
    after (at0100 0x00#8 0b00011000#8 [(0x020, 0x04#8)]) 0x1920
      (fun t => t.pc == 0x0101#13 && t.cycles == 1) = true := by
  decide +kernel

theorem test_btfss_skips_on_set :
    after (at0100 0x00#8 0b00011000#8 [(0x020, 0x80#8)]) 0x1FA0
      (fun t => t.pc == 0x0102#13 && t.cycles == 2) = true := by
  decide +kernel

theorem test_btfss_goes_on_on_clear :
    after (at0100 0x00#8 0b00011000#8 [(0x020, 0x7F#8)]) 0x1FA0
      (fun t => t.pc == 0x0101#13 && t.cycles == 1) = true := by
  decide +kernel

theorem test_addlw_wraps :
    after (at0100 0x01#8 0b00011000#8 []) 0x3EFF (fun t => t.w == 0x00#8 && t.status == 0b00011111#8) = true := by
  decide +kernel

theorem test_addlw_digit_carry_alone :
    after (at0100 0x08#8 0b00011000#8 []) 0x3E08 (fun t => t.w == 0x10#8 && t.status == 0b00011010#8) = true := by
  decide +kernel

theorem test_andlw :
    after (at0100 0xA3#8 0b00011000#8 []) 0x395F (fun t => t.w == 0x03#8 && t.status == 0b00011000#8) = true := by
  decide +kernel

theorem test_andlw_zero :
    after (at0100 0xFF#8 0b00011000#8 []) 0x3900 (fun t => t.w == 0x00#8 && t.status == 0b00011100#8) = true := by
  decide +kernel

theorem test_call_pushes_and_takes_the_page :
    after { at0100 0x00#8 0b00011000#8 [] with pclath := 0x18#5, pc := 0x07FF#13 } 0x2123
      (fun t => t.pc == 0x1923#13 && t.stack == [0x0800#13] && t.cycles == 2) = true := by
  decide +kernel

theorem test_clrwdt_writes_to_and_pd_alone :
    after { at0100 0x00#8 0b11100111#8 [] with wdtCount := 9 } 0x0064
      (fun t => t.status == 0b11111111#8 && t.wdtCount == 0) = true := by
  decide +kernel

theorem test_clrwdt_clears_the_prescaler_of_the_wdt :
    after { at0100 0x00#8 0b00011000#8 [] with optionReg := 0xFF#8, prescaler := 0x33#8 } 0x0064
      (fun t => t.prescaler == 0x00#8) = true := by
  decide +kernel

theorem test_goto_takes_the_page :
    after { at0100 0x00#8 0b00011000#8 [] with pclath := 0x08#5 } 0x2FFF
      (fun t => t.pc == 0x0FFF#13 && t.cycles == 2) = true := by
  decide +kernel

theorem test_goto_ignores_pclath_2_0 :
    after { at0100 0x00#8 0b00011000#8 [] with pclath := 0x07#5 } 0x2805 (fun t => t.pc == 0x0005#13) = true := by
  decide +kernel

theorem test_iorlw :
    after (at0100 0x9A#8 0b00011000#8 []) 0x3835 (fun t => t.w == 0xBF#8 && t.status == 0b00011000#8) = true := by
  decide +kernel

theorem test_iorlw_of_zeros :
    after (at0100 0x00#8 0b00011000#8 []) 0x3800 (fun t => t.w == 0x00#8 && t.status == 0b00011100#8) = true := by
  decide +kernel

theorem test_movlw_sets_no_flag :
    after (at0100 0x00#8 0b00011111#8 []) 0x305A (fun t => t.w == 0x5A#8 && t.status == 0b00011111#8) = true := by
  decide +kernel

theorem test_retfie_pops_and_sets_gie :
    after { at0100 0x00#8 0b00011000#8 [] with intcon := 0x10#8, stack := [0x0013#13] } 0x0009
      (fun t => t.pc == 0x0013#13 && t.intcon == 0x90#8 && t.stack == []) = true := by
  decide +kernel

theorem test_retlw_loads_w :
    after { at0100 0x55#8 0b00011111#8 [] with stack := [0x0124#13] } 0x3407
      (fun t => t.w == 0x07#8 && t.pc == 0x0124#13 && t.status == 0b00011111#8) = true := by
  decide +kernel

theorem test_return_pops :
    after { at0100 0x55#8 0b00011000#8 [] with stack := [0x1ABC#13] } 0x0008
      (fun t => t.pc == 0x1ABC#13 && t.stack == [] && t.w == 0x55#8) = true := by
  decide +kernel

theorem test_sleep_writes_to_and_pd :
    after (at0100 0x00#8 0b00000111#8 []) 0x0063
      (fun t => t.status == 0b00010111#8 && t.asleep && t.pc == 0x0101#13) = true := by
  decide +kernel

theorem test_sublw_is_k_minus_w :
    after (at0100 0x03#8 0b00011000#8 []) 0x3C02 (fun t => t.w == 0xFF#8 && t.status == 0b00011000#8) = true := by
  decide +kernel

theorem test_sublw_equal :
    after (at0100 0x02#8 0b00011000#8 []) 0x3C02 (fun t => t.w == 0x00#8 && t.status == 0b00011111#8) = true := by
  decide +kernel

theorem test_xorlw :
    after (at0100 0xB5#8 0b00011000#8 []) 0x3AAF (fun t => t.w == 0x1A#8 && t.status == 0b00011000#8) = true := by
  decide +kernel

theorem test_xorlw_equal :
    after (at0100 0xB5#8 0b00011000#8 []) 0x3AB5 (fun t => t.w == 0x00#8 && t.status == 0b00011100#8) = true := by
  decide +kernel

/-! ### Events and model faults (95_test_vectors.md 2.3, 2.9, 2.10) -/

/-- The outcome is the next state `t`. -/
def gives (o : Host.Outcome State Fault Refusal) (t : State) : Bool :=
  match o with
  | .next u => decide (u = t)
  | .fault _ => false
  | .refused _ => false

/-- The outcome is the fault `e`. -/
def faults (o : Host.Outcome State Fault Refusal) (e : Fault) : Bool :=
  match o with
  | .next _ => false
  | .fault e' => decide (e' = e)
  | .refused _ => false

/-- The outcome is the refusal `r`. -/
def refuses (o : Host.Outcome State Fault Refusal) (r : Refusal) : Bool :=
  match o with
  | .next _ => false
  | .fault _ => false
  | .refused r' => decide (r' = r)

/-- Awake at 0123h in a program of NOPs, INTCON as given. -/
def at0123 (intcon : Byte) : State :=
  { at0100 0x55#8 0b00011000#8 [] with
    pc := 0x0123#13, intcon := intcon, program := List.replicate 0x125 0x0000#14 }

/-- Asleep with the instruction after the SLEEP at 0015h, INTCON as given, and an input for the next step. -/
def asleepAt0015 (intcon : Byte) (inp : StepInput) : State :=
  { at0123 intcon with pc := 0x0015#13, status := 0b00010000#8, asleep := true, inputs := [inp] }

/-- The device with the Watchdog configured on. -/
def watchdogOn : Device := { Device.default with configWdte := true }

/-- A rising edge of the INT pin, which the reset value of INTEDG selects. -/
def risingEdge : StepInput := { StepInput.quiet with before := { FlagEvents.quiet with intPin := [true] } }

/-- A pulse of the INT pin within one step, high and low again. -/
def pulse : StepInput := { StepInput.quiet with before := { FlagEvents.quiet with intPin := [true, false] } }

/-- A rising edge of the INT pin between the instruction's read and its write. -/
def edgeInside : StepInput := { StepInput.quiet with during := { FlagEvents.quiet with intPin := [true] } }

/-- The platform says that a request is pending, whatever INTCON holds. -/
def platformRequest : StepInput := { StepInput.quiet with pending := some true }

/-- A Watchdog time-out. -/
def timeOutInput : StepInput := { StepInput.quiet with wdtTimeout := true }

/-- The request of a reset. -/
def resetInput (r : ResetRequest) : StepInput := { StepInput.quiet with reset := some r }

/-- A device with banks 0 and 1 only. -/
def twoBanks : Device := { Device.default with banks := .two }

/-- A device with no register at 25h. -/
def noRegisterAt25 : Device := { Device.default with fileMapChanges := [(0x025#9, .unimplemented)] }

theorem test_interrupt_entry :
    gives (step (at0123 0x92#8)) { at0123 0x12#8 with stack := [0x0123#13], pc := 0x0004#13 } = true := by
  decide +kernel

theorem test_pulse_within_a_step_raises_intf :
    (takeInput { at0123 0x00#8 with inputs := [pulse] }).intcon = 0x02#8
      ∧ (takeInput { at0123 0x00#8 with inputs := [pulse] }).intPin = false := by decide

theorem test_bsf_of_intcon_loses_a_flag_raised_inside :
    after { at0100 0x00#8 0b00011000#8 [] with inputs := [edgeInside] } 0x160B
      (fun t => t.intcon == 0x10#8 && t.intPin && t.midFlags == 0#3) = true := by decide +kernel

theorem test_nop_keeps_a_flag_raised_inside :
    after { at0100 0x00#8 0b00011000#8 [] with inputs := [edgeInside] } 0x0000
      (fun t => t.intcon == 0x02#8 && t.midFlags == 0#3) = true := by decide +kernel

theorem test_platform_request_is_taken :
    gives (step { at0123 0x80#8 with inputs := [platformRequest] })
      { at0123 0x00#8 with stack := [0x0123#13], pc := 0x0004#13, platformPending := some true } = true := by
  decide +kernel

theorem test_no_entry_with_gie_clear :
    gives (step (at0123 0x12#8)) { at0123 0x12#8 with pc := 0x0124#13, cycles := 1 } = true := by decide +kernel

theorem test_interrupt_entry_on_a_full_stack :
    faults (step { at0123 0x92#8 with stack := List.replicate 8 0x0001#13 }) .stackOverflow = true := by decide +kernel

theorem test_wake_by_interrupt_owes_one_instruction :
    gives (step (asleepAt0015 0x90#8 risingEdge)) { asleepAt0015 0x92#8 risingEdge with
      inputs := [], intPin := true, asleep := false, mustExecuteOne := true } = true := by decide +kernel

theorem test_wake_with_gie_clear_owes_none :
    gives (step (asleepAt0015 0x10#8 risingEdge)) { asleepAt0015 0x12#8 risingEdge with
      inputs := [], intPin := true, asleep := false } = true := by decide +kernel

theorem test_watchdog_wakes_with_to_and_pd_0 :
    gives (step { asleepAt0015 0x00#8 timeOutInput with dev := watchdogOn })
      { asleepAt0015 0x00#8 timeOutInput with
        dev := watchdogOn, inputs := [], asleep := false, status := 0b00000000#8 } = true := by decide +kernel

theorem test_watchdog_reset_while_awake :
    (resetTo .watchdog { at0123 0x00#8 with status := 0b00111101#8 }).status = 0b00001101#8 := by decide

theorem test_power_on_reset_clears_por :
    (resetTo .powerOn { at0123 0x92#8 with pcon := 0b111#3 }).pcon.getLsbD 1 = false := by
  show (0b00#2 ++ BitVec.ofBool (Config.drawBor 0) : BitVec 3).getLsbD 1 = false
  generalize Config.drawBor 0 = b
  revert b
  decide

theorem test_call_on_a_full_stack :
    faults (exec (.call 0x123#11) { at0123 0x00#8 with stack := List.replicate 8 0x0001#13 }) .stackOverflow = true := by
  decide +kernel

theorem test_return_on_an_empty_stack :
    faults (exec .ret (at0123 0x00#8)) .stackUnderflow = true := by decide +kernel

theorem test_bank_2_of_two :
    faults (exec (.movwf 0x20#7) { at0123 0x00#8 with dev := twoBanks, status := 0b01011000#8 }) .reservedBank = true := by
  decide +kernel

theorem test_no_register_at_25 :
    faults (exec (.movf 0x25#7 .w) { at0123 0x00#8 with dev := noRegisterAt25 }) .unimplementedRegister = true := by
  decide +kernel

theorem test_fetch_outside :
    faults (step { at0123 0x00#8 with pc := 0x0125#13 }) .fetchOutsideProgram = true := by decide +kernel

theorem test_undefined_word :
    refuses (step ((at0123 0x00#8).withFetchWord 14 0x0001)) (.undefinedInstruction 0x0001#14) = true := by
  decide +kernel

theorem test_indirect_access_to_indf_reads_zero :
    after { at0100 0x77#8 0b00011000#8 [] with fsr := 0x80#8 } 0x0800 (fun t => t.w == 0x00#8) = true := by
  decide +kernel

theorem test_first_instruction_after_reset :
    gives (step (State.reset.withFetchWord 14 0x305A))
      { State.reset with program := [0x305A#14], w := 0x5A#8, pc := 0x0001#13, cycles := 1 } = true := by decide +kernel


/-! ### For every statement with hypotheses, a state and operands that meet them all

The name after `witness_` is the statement's. A second letter marks a further clause or a boundary value. -/

/-- The invariant of a state with an empty stack, from its other clauses. -/
theorem inv_of_empty_stack (s : State) (empty : s.stack = [])
    (rest : (pcFits s.dev s.pc ∧ Memory.wf s.ram = true ∧ Memory.wf s.latches = true ∧ programFits s.dev s.program = true)
      ∧ (s.asleep = true → s.timeOut = true ∧ s.powerDown = false ∧ s.mustExecuteOne = false)) : s.Inv := by
  refine ⟨rest.1.1, ?_, ?_, rest.1.2.1, rest.1.2.2.1, rest.1.2.2.2, rest.2⟩ <;> simp [empty]

theorem witness_DontCareBitsDoNotMatter :
    decode 0x017F#14 = .ok .clrw
      ∧ 0x0100#14 &&& ~~~Instr.clrw.dontCareMask = 0x017F#14 &&& ~~~Instr.clrw.dontCareMask := by decide +kernel

theorem witness_DontCareBitsDoNotMatter_b :
    decode 0x33FF#14 = .ok (.movlw 0xFF#8)
      ∧ 0x30FF#14 &&& ~~~(Instr.movlw 0xFF#8).dontCareMask = 0x33FF#14 &&& ~~~(Instr.movlw 0xFF#8).dontCareMask := by
  decide +kernel

/-- A program of one word at the reset vector, as a word of the image. -/
def oneWord (w : InstrWord) : State := { State.reset with program := [w] }

theorem witness_UndefinedWordsAreRefused :
    RunsInstruction (oneWord 0x007F#14) ∧ (oneWord 0x007F#14).program[(oneWord 0x007F#14).pc.toNat]? = some 0x007F#14
      ∧ (0x007F#14).toNat < 0x80 ∧ (0x007F#14).toNat ∉ [0x00, 0x08, 0x09, 0x20, 0x40, 0x60, 0x63, 0x64] := by decide +kernel

theorem witness_UndefinedWordsAreRefused_b :
    RunsInstruction (oneWord 0x3B00#14) ∧ (oneWord 0x3B00#14).program[(oneWord 0x3B00#14).pc.toNat]? = some 0x3B00#14
      ∧ 0x3B00 ≤ (0x3B00#14).toNat ∧ (0x3B00#14).toNat ≤ 0x3BFF := by decide +kernel

theorem witness_UndefinedWordsAreRefused_c :
    RunsInstruction (oneWord 0x3BFF#14) ∧ (oneWord 0x3BFF#14).program[(oneWord 0x3BFF#14).pc.toNat]? = some 0x3BFF#14
      ∧ 0x3B00 ≤ (0x3BFF#14).toNat ∧ (0x3BFF#14).toNat ≤ 0x3BFF := by decide +kernel

theorem witness_DecoderFollowsTheOpcodeMap :
    (0 < 35 ∧ (opcodeRows[0]?).any (fun r => r.admits 0x07FF#14) = true)
      ∧ (34 < 35 ∧ (opcodeRows[34]?).any (fun r => r.admits 0x3AFF#14) = true) := by decide +kernel

theorem witness_StepRunsTheDecodedInstruction :
    RunsInstruction (oneWord 0x305A#14) ∧ (oneWord 0x305A#14).program[(oneWord 0x305A#14).pc.toNat]? = some 0x305A#14
      ∧ decode 0x305A#14 = .ok (.movlw 0x5A#8) := by decide +kernel

/-- The last address of an 11-bit program memory, where the PC wraps. -/
def lastOf11 : State :=
  { oneWord 0x0000#14 with dev := { Device.default with pcWidth := .bits11 }, pc := 0x07FF#13,
                           program := List.replicate 0x800 0x0000#14 }

theorem witness_StepRunsTheDecodedInstruction_b :
    RunsInstruction lastOf11 ∧ lastOf11.program[lastOf11.pc.toNat]? = some 0x0000#14
      ∧ decode 0x0000#14 = .ok .nop ∧ (fetched lastOf11).pc = 0x0000#13 := by decide +kernel

theorem witness_StepRunsTheDecodedInstruction_owed :
    RunsInstruction { at0123 0x92#8 with mustExecuteOne := true }
      ∧ (at0123 0x92#8).program[(at0123 0x92#8).pc.toNat]? = some 0x0000#14 ∧ decode 0x0000#14 = .ok .nop := by
  decide +kernel

/-- The hypotheses of an interrupt entry. -/
abbrev EntryDue (s : State) : Prop :=
  NoReset s ∧ s.asleep = false ∧ s.mustExecuteOne = false ∧ (takeInput s).gie = true ∧ intPending (takeInput s) = true

theorem witness_InterruptEntrySavesThePc :
    EntryDue { at0123 0x92#8 with stack := List.replicate 7 0x0001#13 } ∧ (List.replicate 7 0x0001#13).length < 8 := by
  decide +kernel

theorem witness_InterruptEntrySavesThePc_full :
    EntryDue { at0123 0x92#8 with stack := List.replicate 8 0x0001#13 } ∧ 8 ≤ (List.replicate 8 0x0001#13).length := by
  decide +kernel

theorem witness_SleepingDeviceExecutesNothing :
    NoReset (asleepAt0015 0x80#8 risingEdge) ∧ (asleepAt0015 0x80#8 risingEdge).asleep = true
      ∧ wakeEvent (takeInput (asleepAt0015 0x80#8 risingEdge)) (currentInput (asleepAt0015 0x80#8 risingEdge)) = false := by
  decide +kernel

theorem witness_WakeUpResumesAfterTheSleep :
    NoReset (asleepAt0015 0x90#8 risingEdge) ∧ (asleepAt0015 0x90#8 risingEdge).asleep = true
      ∧ wakeEvent (takeInput (asleepAt0015 0x90#8 risingEdge)) (currentInput (asleepAt0015 0x90#8 risingEdge)) = true := by
  decide +kernel

/-- Asleep, with the Watchdog on, and a time-out in the next step. -/
def timeOutAsleep : State := { asleepAt0015 0x00#8 timeOutInput with dev := watchdogOn }

/-- Awake, with the Watchdog on, and a time-out in the next step. -/
def timeOutAwake : State := { at0123 0x00#8 with dev := watchdogOn, inputs := [timeOutInput] }

theorem witness_WakeUpResumesAfterTheSleep_watchdog :
    NoReset timeOutAsleep ∧ timeOutAsleep.asleep = true
      ∧ wakeEvent (takeInput timeOutAsleep) (currentInput timeOutAsleep) = true := by decide +kernel

/-- The state after the wake-up of `asleepAt0015 0x90#8 risingEdge`. -/
def wokenAt0015 : State :=
  { asleepAt0015 0x92#8 risingEdge with inputs := [], intPin := true, asleep := false, mustExecuteOne := true }

theorem witness_OneInstructionRunsBeforeTheInterrupt :
    NoReset (asleepAt0015 0x90#8 risingEdge) ∧ (asleepAt0015 0x90#8 risingEdge).asleep = true
      ∧ intPending (takeInput (asleepAt0015 0x90#8 risingEdge)) = true ∧ (asleepAt0015 0x90#8 risingEdge).gie = true
      ∧ gives (step (asleepAt0015 0x90#8 risingEdge)) wokenAt0015 = true ∧ NoReset wokenAt0015
      ∧ (asleepAt0015 0x90#8 risingEdge).program[0x15]? = some 0x0000#14 ∧ decode 0x0000#14 = .ok .nop := by
  decide +kernel

theorem witness_WatchdogResetsAwakeAndWakesAsleep :
    timeOutAwake.Inv ∧ (currentInput timeOutAwake).reset = none ∧ (currentInput timeOutAwake).wdtTimeout = true
      ∧ timeOutAwake.dev.configWdte = true ∧ timeOutAwake.asleep = false :=
  ⟨inv_of_empty_stack _ rfl (by decide +kernel), by decide +kernel⟩

theorem witness_WatchdogResetsAwakeAndWakesAsleep_asleep :
    timeOutAsleep.Inv ∧ (currentInput timeOutAsleep).reset = none ∧ (currentInput timeOutAsleep).wdtTimeout = true
      ∧ timeOutAsleep.dev.configWdte = true ∧ timeOutAsleep.asleep = true :=
  ⟨inv_of_empty_stack _ rfl (by decide +kernel), by decide +kernel⟩

theorem witness_PowerOnResetFromAnyState :
    (currentInput { at0123 0x92#8 with inputs := [resetInput .powerOn] }).reset = some .powerOn := by decide +kernel

theorem witness_OtherResetsFollowTheTable :
    (currentInput { at0123 0x92#8 with inputs := [resetInput .brownOut] }).reset = some .brownOut
      ∧ ResetRequest.brownOut ≠ .powerOn ∧ Device.default.hasBor = true
      ∧ ({ Device.default with configBoden := true } : Device).configBoden = true := by decide +kernel

theorem witness_OtherResetsFollowTheTable_parity :
    (currentInput { at0123 0x92#8 with inputs := [resetInput .parityError] }).reset = some .parityError
      ∧ ResetRequest.parityError ≠ .powerOn := by decide +kernel

theorem witness_OtherResetsFollowTheTable_external :
    (currentInput (asleepAt0015 0x00#8 (resetInput .external))).reset = some .external
      ∧ ResetRequest.external ≠ .powerOn := by decide +kernel

theorem witness_FetchOutsideProgramFaults :
    (0x0000#13).toNat < (oneWord 0x0000#14).program.length ∧ (oneWord 0x0000#14).program.length ≤ (0x0001#13).toNat
      ∧ RunsInstruction { oneWord 0x0000#14 with pc := 0x0001#13 }
      ∧ (oneWord 0x0000#14).program.length ≤ ({ oneWord 0x0000#14 with pc := 0x0001#13 } : State).pc.toNat := by decide +kernel

theorem witness_SubtractionRule :
    (0x01#8).toNat < (0x02#8).toNat ∧ (0xFF#8 : Byte) = 0xFF#8 ∧ (0x00#8).toNat < (0xFF#8).toNat
      ∧ (0x00#8 : Byte) = 0x00#8 := by decide +kernel

/-- A state with the invariant in which every register but the I/O ones can be named. -/
def gprState : State := at0100 0x17#8 0b00011001#8 [(0x020, 0xC2#8)]

theorem gprState_inv : gprState.Inv := inv_of_empty_stack _ rfl (by decide +kernel)

theorem witness_AddwfAddsWAndF : gprState.Inv ∧ OperandOk gprState 0x20#7 :=
  ⟨gprState_inv, by decide +kernel⟩

theorem witness_SubwfSubtractsWFromF : gprState.Inv ∧ OperandOk gprState 0x03#7 :=
  ⟨gprState_inv, by decide +kernel⟩

theorem witness_LogicOfWAndF : gprState.Inv ∧ OperandOk gprState 0x02#7 :=
  ⟨gprState_inv, by decide +kernel⟩

theorem witness_ComplementAndMoveOfF : gprState.Inv ∧ OperandOk gprState 0x01#7 :=
  ⟨gprState_inv, by decide +kernel⟩

theorem witness_IncrementAndDecrementOfF : gprState.Inv ∧ OperandOk gprState 0x04#7 :=
  ⟨gprState_inv, by decide +kernel⟩

theorem witness_IncrementAndDecrementThatSkip : gprState.Inv ∧ OperandOk gprState 0x7F#7 :=
  ⟨gprState_inv, by decide +kernel⟩

/-- INCFSZ PCL, 1 with the low byte of the PC at FFh: the result is 0, and the skip goes on from the loaded PC (log 24). -/
theorem witness_IncrementAndDecrementThatSkip_pcl :
    ({ gprState with pc := 0x01FF#13, pclath := 0x02#5 } : State).Inv
      ∧ OperandOk { gprState with pc := 0x01FF#13, pclath := 0x02#5 } 0x02#7
      ∧ operandValue { gprState with pc := 0x01FF#13, pclath := 0x02#5 } 0x02#7 = 0xFF#8
      ∧ gives (exec (.incfsz 0x02#7 .f) { gprState with pc := 0x01FF#13, pclath := 0x02#5 })
          { gprState with pc := 0x0201#13, pclath := 0x02#5, cycles := 1 } = true :=
  ⟨inv_of_empty_stack _ rfl (by decide +kernel), by decide +kernel⟩

theorem witness_RotatesOfF : gprState.Inv ∧ OperandOk gprState 0x06#7 :=
  ⟨gprState_inv, by decide +kernel⟩

theorem witness_SwapfExchangesNibbles : gprState.Inv ∧ OperandOk gprState 0x0A#7 :=
  ⟨gprState_inv, by decide +kernel⟩

theorem witness_ClrfAndMovwfWriteF : gprState.Inv ∧ OperandOk gprState 0x0B#7 :=
  ⟨gprState_inv, by decide +kernel⟩

theorem witness_BitClearAndBitSet : gprState.Inv ∧ OperandOk gprState 0x00#7 :=
  ⟨gprState_inv, by decide +kernel⟩

theorem witness_BitTestsSkip : OperandOk gprState 0x20#7 ∧ OperandOk gprState 0x00#7 := by decide +kernel

/-- In bank 1, with a pointer into bank 3. -/
def bank1State : State := { at0100 0x17#8 0b10111000#8 [] with fsr := 0xA0#8 }

theorem witness_registers_in_other_banks :
    bank1State.Inv ∧ OperandOk bank1State 0x0E#7 ∧ OperandOk bank1State 0x01#7 ∧ OperandOk bank1State 0x00#7 :=
  ⟨inv_of_empty_stack _ rfl (by decide +kernel), by decide +kernel⟩

theorem witness_CallPushesAndJumps : (List.replicate 7 0x0001#13).length < State.reset.dev.stackDepth := by decide +kernel

theorem witness_CallPushesAndJumps_full : State.reset.dev.stackDepth ≤ (List.replicate 8 0x0001#13).length := by decide +kernel

/-- A state with one return address. -/
def calledState : State := { gprState with stack := [0x0124#13] }

theorem witness_ReturnsPopThePc : calledState.stack = [0x0124#13] ∧ gprState.stack = [] := by decide +kernel

theorem witness_OperandAddressIsDirectOrIndirect :
    fileCell gprState.dev (directAddr gprState 0x01#7) ≠ .indf
      ∧ fileCell gprState.dev (directAddr gprState 0x00#7) = .indf := by decide +kernel

theorem witness_InterruptRequestAndWakeUpConditions :
    (at0123 0x12#8).platformPending = none ∧ intPending (at0123 0x12#8) = true
      ∧ ({ at0123 0x12#8 with platformPending := some false } : State).platformPending = some false
      ∧ intPending { at0123 0x12#8 with platformPending := some false } = false := by decide +kernel

theorem witness_ReadsOfFileRegisters :
    (∀ a ∈ [0x000#9, 0x001#9, 0x002#9, 0x003#9, 0x004#9, 0x006#9, 0x00A#9, 0x00B#9, 0x020#9, 0x081#9, 0x1FF#9],
      reservedBank gprState.dev a = false ∧ fileCell gprState.dev a ≠ .unimplemented)
      ∧ fileCell gprState.dev 0x001#9 = .tmr0 ∧ fileCell gprState.dev 0x006#9 = .io 0x006#9
      ∧ ({ gprState with ioIn := some 0xFE#8 } : State).ioIn = some 0xFE#8 := by decide +kernel

theorem witness_FileMapPlacesTheRegisters :
    reservedBank twoBanks 0x083#9 = false ∧ (0x083#9).extractLsb' 0 7 = twoBanks.statusOffset
      ∧ 0x20 ≤ (0x20#7).toNat ∧ 0x20 ≤ (0x7F#7).toNat := by decide +kernel

theorem witness_InaccessibleRegistersFault :
    fileFieldOf (.clrf 0x20#7) = some 0x20#7
      ∧ ({ gprState with dev := twoBanks, status := 0b01011000#8 } : State).dev.banks = .two
      ∧ 256 ≤ (operandAddr { gprState with dev := twoBanks, status := 0b01011000#8 } 0x20#7).toNat := by decide +kernel

theorem witness_InaccessibleRegistersFault_b :
    fileFieldOf (.clrf 0x25#7) = some 0x25#7
      ∧ ¬(({ gprState with dev := noRegisterAt25 } : State).dev.banks = .two
        ∧ 256 ≤ (operandAddr { gprState with dev := noRegisterAt25 } 0x25#7).toNat)
      ∧ fileCell noRegisterAt25 (operandAddr { gprState with dev := noRegisterAt25 } 0x25#7) = .unimplemented := by decide +kernel

theorem witness_WriteToStatusIsRestricted : fileCell gprState.dev 0x183#9 = .status := by decide +kernel

theorem witness_PconReadsAndWrites : fileCell gprState.dev 0x08E#9 = .pcon := by decide +kernel

theorem witness_WriteOfTmr0ClearsThePrescaler :
    gives (exec (.movwf 0x01#7) { gprState with optionReg := 0xD0#8, prescaler := 0x33#8 })
        { gprState with optionReg := 0xD0#8, tmr0 := 0x17#8 } = true
      ∧ cellWrittenBy (.movwf 0x01#7) gprState = some .tmr0 := by decide +kernel

theorem witness_WriteOfTmr0ClearsThePrescaler_b :
    gives (exec .nop gprState) gprState = true ∧ cellWrittenBy .nop gprState ≠ some .tmr0 ∧ Instr.nop ≠ .clrwdt
      ∧ Instr.nop ≠ .sleep := by decide +kernel

theorem witness_MovfOfAPortCopiesThePins :
    ({ gprState with ioIn := some 0xFE#8 } : State).Inv
      ∧ fileCell gprState.dev (operandAddr { gprState with ioIn := some 0xFE#8 } 0x06#7) = .io 0x006#9
      ∧ ({ gprState with ioIn := some 0xFE#8 } : State).ioIn = some 0xFE#8 :=
  ⟨inv_of_empty_stack _ rfl (by decide +kernel), by decide +kernel⟩

theorem witness_PclReadsAndWrites :
    RunsInstruction (oneWord (encode (.movf 0x02#7 .w))) ∧ OperandOk (oneWord (encode (.movf 0x02#7 .w))) 0x02#7
      ∧ fileCell Device.default (operandAddr (oneWord (encode (.movf 0x02#7 .w))) 0x02#7) = .pcl
      ∧ (oneWord (encode (.movf 0x02#7 .w))).program[0]? = some (encode (.movf 0x02#7 .w)) := by decide +kernel

theorem witness_PclReadsAndWrites_b :
    RunsInstruction (oneWord (encode (.movwf 0x02#7))) ∧ OperandOk (oneWord (encode (.movwf 0x02#7))) 0x02#7
      ∧ fileCell Device.default (operandAddr (oneWord (encode (.movwf 0x02#7))) 0x02#7) = .pcl
      ∧ (oneWord (encode (.movwf 0x02#7))).program[0]? = some (encode (.movwf 0x02#7)) := by decide +kernel

theorem witness_PrescalerRates : (0xF7#8).getLsbD 3 = false ∧ (0xFF#8).getLsbD 3 = true := by decide +kernel

theorem witness_EveryInstructionCompletes :
    CanComplete (.addwf 0x20#7 .f) gprState ∧ CanComplete (.call 0x123#11) gprState ∧ CanComplete .ret calledState
      ∧ ¬CanComplete .ret gprState := by decide +kernel

theorem witness_OnlyClrwdtAndSleepWriteToPd :
    gives (exec (.movwf 0x03#7) { gprState with w := 0x00#8, status := 0xFF#8 })
        { gprState with w := 0x00#8, status := 0x18#8 } = true
      ∧ Instr.movwf 0x03#7 ≠ .clrwdt ∧ Instr.movwf 0x03#7 ≠ .sleep := by decide +kernel

theorem witness_StatusBitsOutsideTheRowStay :
    gives (exec (.movlw 0x5A#8) gprState) { gprState with w := 0x5A#8 } = true
      ∧ cellWrittenBy (.movlw 0x5A#8) gprState ≠ some .status ∧ (statusBitsOf (.movlw 0x5A#8)).c = false
      ∧ (statusBitsOf (.movlw 0x5A#8)).dc = false ∧ (statusBitsOf (.movlw 0x5A#8)).z = false
      ∧ (statusBitsOf (.movlw 0x5A#8)).toPd = false := by decide +kernel

theorem witness_OnlyCallsAndReturnsTouchTheStack :
    gives (exec .ret calledState) { calledState with stack := [], pc := 0x0124#13, cycles := 1 } = true := by decide +kernel

theorem witness_RegistersChangeOnlyAsDestination :
    gives (exec .retfie calledState)
        { calledState with stack := [], pc := 0x0124#13, cycles := 1, intcon := 0x80#8 } = true
      ∧ writesW .retfie = false ∧ cellWrittenBy .retfie calledState ≠ some .fsr := by decide +kernel

theorem witness_PcMovesOnlyInTheListedWays :
    gives (exec (.goto 0x7FF#11) gprState) { gprState with pc := 0x07FF#13, cycles := 1 } = true
      ∧ ({ gprState with pc := 0x07FF#13 } : State).pc ≠ gprState.pc := by decide +kernel

theorem witness_EveryStepKeepsTheInvariant :
    (at0123 0x92#8).Inv
      ∧ gives (step (at0123 0x92#8)) { at0123 0x12#8 with stack := [0x0123#13], pc := 0x0004#13 } = true :=
  ⟨inv_of_empty_stack _ rfl (by decide +kernel), by decide +kernel⟩

theorem witness_NoStepWritesProgramMemory :
    gives (step (at0123 0x12#8)) { at0123 0x12#8 with pc := 0x0124#13, cycles := 1 } = true := by decide +kernel

theorem witness_ReturnUndoesCall :
    gives (exec (.call 0x123#11) gprState)
        { gprState with stack := [0x0100#13], pc := 0x0123#13, cycles := 1 } = true
      ∧ ({ calledState with stack := [0x0100#13] } : State).stack = [0x0100#13] := by decide +kernel

/-- Interrupted at 0010h, with RETFIE alone at 0004h. -/
def handledState : State :=
  { at0123 0x92#8 with pc := 0x0010#13, program := placeWord (List.replicate 0x20 0x0000#14) 4 0x0009#14 }

theorem witness_InterruptAndRetfieAreTransparent :
    NoReset handledState ∧ handledState.asleep = false ∧ handledState.mustExecuteOne = false ∧ handledState.gie = true
      ∧ intPending (takeInput handledState) = true ∧ handledState.stack.length < handledState.dev.stackDepth
      ∧ handledState.program[4]? = some 0x0009#14
      ∧ gives (step handledState) { handledState with intcon := 0x12#8, stack := [0x0010#13], pc := 0x0004#13 } = true
      ∧ NoReset { handledState with intcon := 0x12#8, stack := [0x0010#13], pc := 0x0004#13 } := by decide +kernel

/-- One instruction at address 0, with 80h at 20h, FFh at 21h and 01h at 22h. -/
def skipState (i : Instr) : State :=
  { oneWord (encode i) with ram := [(0x020, 0x80#8), (0x021, 0xFF#8), (0x022, 0x01#8)] }

/-- The hypotheses on the state at a skip. -/
abbrev SkipReady (i : Instr) (f : FileField) : Prop :=
  RunsInstruction (skipState i) ∧ OperandOk (skipState i) f
    ∧ (skipState i).program[(skipState i).pc.toNat]? = some (encode i) ∧ cellWrittenBy i (skipState i) ≠ some .pcl

theorem skipState_inv (i : Instr) : (skipState i).Inv :=
  inv_of_empty_stack _ rfl ⟨⟨by show 0 < 8192; omega, rfl, rfl, rfl⟩, fun h => nomatch h⟩

theorem witness_SkippedWordHasNoEffect :
    (skipState (.btfss 0x20#7 7#3)).Inv ∧ SkipReady (.btfss 0x20#7 7#3) 0x20#7
      ∧ (operandValue (fetched (skipState (.btfss 0x20#7 7#3))) 0x20#7).getLsbD 7 = true :=
  ⟨skipState_inv _, by decide +kernel⟩

theorem witness_SkippedWordHasNoEffect_btfsc :
    (skipState (.btfsc 0x20#7 0#3)).Inv ∧ SkipReady (.btfsc 0x20#7 0#3) 0x20#7
      ∧ (operandValue (fetched (skipState (.btfsc 0x20#7 0#3))) 0x20#7).getLsbD 0 = false :=
  ⟨skipState_inv _, by decide +kernel⟩

theorem witness_SkippedWordHasNoEffect_incfsz :
    (skipState (.incfsz 0x21#7 .f)).Inv ∧ SkipReady (.incfsz 0x21#7 .f) 0x21#7
      ∧ operandValue (fetched (skipState (.incfsz 0x21#7 .f))) 0x21#7 = 0xFF#8 :=
  ⟨skipState_inv _, by decide +kernel⟩

theorem witness_SkippedWordHasNoEffect_decfsz :
    (skipState (.decfsz 0x22#7 .w)).Inv ∧ SkipReady (.decfsz 0x22#7 .w) 0x22#7
      ∧ operandValue (fetched (skipState (.decfsz 0x22#7 .w))) 0x22#7 = 0x01#8 :=
  ⟨skipState_inv _, by decide +kernel⟩

end Sys2Proof.Tests
end

section
/-! Facts about the shared operations that several statements use: accesses to file registers, what an instruction that
names a register has written, and what STATUS holds after an instruction. -/

namespace Sys2Proof.Machine

/-! ### Accesses -/

/-- A cell that is a register is accessible: a reserved bank holds none. -/
theorem accessFault_eq_none_of_fileCell {s : State} {a : DataAddr} {c : FileCell} (h : fileCell s.dev a = c)
    (hc : c ≠ .unimplemented) : accessFault s a = none := by
  rw [accessFault_none_iff, h]
  refine ⟨?_, hc⟩
  cases hb : reservedBank s.dev a with
  | false => rfl
  | true => exact absurd (by rw [← h]; simp [fileCell, hb]) hc

/-! ### What an instruction that names a register has written -/

/-- The read before a write leaves a trace in the count of draws alone. -/
theorem destState_afterRead (s : State) (a b : DataAddr) (d : Dest) (out : AluOut) :
    destState (afterRead s b) a d out = { destState s a d out with draws := (afterRead s b).draws } := by
  cases d with
  | w => rfl
  | f =>
    simp only [destState_f, poke, State.dev_afterRead]
    split <;> rfl

/-- Whatever its shape, an instruction that delivers a result leaves the destination write and the status write behind, but
for the PC and the counts of cycles and draws. -/
theorem DeliveredTo.eq_destState {i : Instr} {s t : State} (h : DeliveredTo i s t) :
    ∃ (f : FileField) (d : Dest) (out : AluOut),
      fileFieldOf i = some f ∧ fileWrittenBy i = (if d = .f then some f else none) ∧ (writesW i = true ↔ d = .w)
        ∧ RowIs i out.flags
        ∧ t = { (destState s (operandAddr s f) d out).setFlags out.flags with
            pc := t.pc, cycles := t.cycles, draws := t.draws } := by
  obtain ⟨f, d, out, hf, -, hdest, hw, hrow, rfl | rfl | ⟨-, rfl⟩⟩ := h
  · exact ⟨f, d, out, hf, hdest, hw, hrow, by rw [destState_afterRead]; rfl⟩
  · exact ⟨f, d, out, hf, hdest, hw, hrow, rfl⟩
  · exact ⟨f, d, out, hf, hdest, hw, hrow, by rw [destState_afterRead]; rfl⟩

end Sys2Proof.Machine
end

section
/-! The invariant of every step. Its part that does not speak of sleep is kept by each operation on its own; the part
about sleep is SLEEP's alone. -/

namespace Sys2Proof.Machine

/-! ### The part of the invariant that does not speak of sleep -/

/-- The bounds of `State.Inv`, field by field. -/
structure State.Bounded (s : State) : Prop where
  pc : pcFits s.dev s.pc
  stack : ∀ a ∈ s.stack, pcFits s.dev a
  depth : s.stack.length ≤ s.dev.stackDepth
  ram : Memory.wf s.ram = true
  latches : Memory.wf s.latches = true
  program : programFits s.dev s.program = true

theorem State.inv_iff (s : State) : s.Inv ↔ s.Bounded ∧
    (s.asleep = true → s.timeOut = true ∧ s.powerDown = false ∧ s.mustExecuteOne = false) :=
  ⟨fun ⟨hpc, hstack, hdepth, hram, hlat, hprog, hsleep⟩ => ⟨⟨hpc, hstack, hdepth, hram, hlat, hprog⟩, hsleep⟩,
    fun ⟨⟨hpc, hstack, hdepth, hram, hlat, hprog⟩, hsleep⟩ => ⟨hpc, hstack, hdepth, hram, hlat, hprog, hsleep⟩⟩

namespace State.Bounded

variable {s t : State}

/-- The bounds rest on six fields. -/
theorem congr (h : s.Bounded) (hdev : t.dev = s.dev) (hprog : t.program = s.program) (hpc : t.pc = s.pc)
    (hstack : t.stack = s.stack) (hram : t.ram = s.ram) (hlat : t.latches = s.latches) : t.Bounded := by
  obtain ⟨h1, h2, h3, h4, h5, h6⟩ := h
  constructor <;> simpa only [hdev, hprog, hpc, hstack, hram, hlat]

theorem setW (h : s.Bounded) (v : Byte) : (s.setW v).Bounded := h.congr rfl rfl rfl rfl rfl rfl

theorem setFlags (h : s.Bounded) (u : FlagUpdate) : (s.setFlags u).Bounded := h.congr rfl rfl rfl rfl rfl rfl

theorem afterRead (h : s.Bounded) (a : DataAddr) : (afterRead s a).Bounded := h.congr rfl rfl rfl rfl rfl rfl

theorem takeInput (h : s.Bounded) : (takeInput s).Bounded := h.congr rfl rfl rfl rfl rfl rfl

theorem landMidFlags (h : s.Bounded) : s.landMidFlags.Bounded := h.congr rfl rfl rfl rfl rfl rfl

theorem loadPc (h : s.Bounded) {a : ProgAddr} (ha : pcFits s.dev a) : (s.loadPc a).Bounded := { h with pc := ha }

theorem advancePc (h : s.Bounded) : (advancePc s).Bounded := { h with pc := pcTrunc_fits _ _ }

theorem skipIf (h : s.Bounded) (b : Bool) : (s.skipIf b).Bounded := by
  cases b with
  | false => exact h.congr rfl rfl rfl rfl rfl rfl
  | true => exact { h with pc := pcTrunc_fits _ _ }

theorem atMostOneMoreCycle (h : s.Bounded) (n : Nat) : (s.atMostOneMoreCycle n).Bounded :=
  h.congr rfl rfl rfl rfl rfl rfl

/-- A write of a file register: PCL takes an address cut to `PC_BITS`, and cells keep their form. -/
theorem poke (h : s.Bounded) (a : DataAddr) (v : Byte) (q : Bool) : (poke s a v q).Bounded where
  pc := by
    rw [poke_dev, poke_pc]
    split
    · exact pcTrunc_fits _ _
    · exact h.pc
  stack := by simpa using h.stack
  depth := by simpa using h.depth
  ram := (poke_wf s a v q h.ram h.latches).1
  latches := (poke_wf s a v q h.ram h.latches).2
  program := by simpa using h.program

theorem destState (h : s.Bounded) (a : DataAddr) (d : Dest) (out : AluOut) : (destState s a d out).Bounded := by
  cases d with
  | w => exact h.setW _
  | f => exact h.poke _ _ _

/-- A push of an address that fits on a stack that is not full. -/
theorem pushed (h : s.Bounded) (hroom : s.stack.length < s.dev.stackDepth) {a : ProgAddr} (ha : pcFits s.dev a) :
    ({ s with stack := a :: s.stack } : State).Bounded :=
  { h with stack := List.forall_mem_cons.mpr ⟨ha, h.stack⟩, depth := hroom }

/-- A return to the address on top of the stack. -/
theorem popped (h : s.Bounded) {a : ProgAddr} {rest : List ProgAddr} (hs : s.stack = a :: rest) :
    ({ s with stack := rest, pc := a } : State).Bounded := by
  have hfits := h.stack
  have hdepth := h.depth
  rw [hs] at hfits hdepth
  obtain ⟨ha, hrest⟩ := List.forall_mem_cons.mp hfits
  exact { h with pc := ha, stack := hrest, depth := Nat.le_of_succ_le hdepth }

end State.Bounded

/-- Every program address below 2048 has `PC_BITS` bits on every device. -/
theorem pcFits_of_lt (d : Device) {a : ProgAddr} (h : a.toNat < 2048) : pcFits d a :=
  Nat.lt_of_lt_of_le h (pcBits_pow_ge d.pcWidth)

/-! ### Instructions -/

/-- Every instruction keeps the bounds. -/
theorem exec_bounded {i : Instr} {s t : State} (hs : s.Bounded) (h : exec i s = .next t) : t.Bounded := by
  rcases exec_next_cases i s t h with hd | hb | hl | hr | hc
  · obtain ⟨f, d, out, -, -, -, -, -, rfl | rfl | ⟨-, rfl⟩⟩ := hd
    · exact ((hs.afterRead _).destState _ _ _).setFlags _
    · exact (hs.destState _ _ _).setFlags _
    · exact ((((hs.afterRead _).destState _ _ _).setFlags _).skipIf _).atMostOneMoreCycle _
  · obtain ⟨f, b, c, -, -, rfl⟩ := hb
    exact (hs.afterRead _).skipIf _
  · obtain ⟨out, -, -, -, -, -, -, rfl⟩ := hl
    exact (hs.setW _).setFlags _
  · obtain ⟨a, rest, hstack, ⟨-, rfl⟩ | ⟨k, -, rfl⟩ | ⟨-, rfl⟩⟩ := hr
    all_goals exact (hs.popped hstack).congr rfl rfl rfl rfl rfl rfl
  · obtain ⟨-, rfl⟩ | ⟨k, -, hroom, rfl⟩ | ⟨k, -, rfl⟩ | ⟨-, rfl⟩ | ⟨-, rfl⟩ := hc
    · exact hs
    · exact (hs.pushed hroom hs.pc).loadPc (pcTrunc_fits _ _)
    · exact hs.loadPc (pcTrunc_fits _ _)
    · exact hs.congr rfl rfl rfl rfl rfl rfl
    · exact hs.congr rfl rfl rfl rfl rfl rfl

/-- SLEEP alone puts a device to sleep, with TO = 1 and PD = 0 (43_literal_control.md R146). -/
theorem exec_asleep {i : Instr} {s t : State} (h : exec i s = .next t) (hawake : s.asleep = false)
    (hasleep : t.asleep = true) : t.timeOut = true ∧ t.powerDown = false ∧ t.mustExecuteOne = s.mustExecuteOne := by
  have absurd_of_eq (heq : t.asleep = s.asleep) : False := by simp [heq, hawake] at hasleep
  rcases exec_next_cases i s t h with hd | hb | hl | hr | hc
  · obtain ⟨f, d, out, -, -, -, -, ht⟩ := hd.eq_destState
    exact (absurd_of_eq (by rw [ht]; cases d <;> simp)).elim
  · obtain ⟨f, b, c, -, -, rfl⟩ := hb
    exact (absurd_of_eq rfl).elim
  · obtain ⟨out, -, -, -, -, -, -, rfl⟩ := hl
    exact (absurd_of_eq rfl).elim
  · obtain ⟨a, rest, -, ⟨-, rfl⟩ | ⟨k, -, rfl⟩ | ⟨-, rfl⟩⟩ := hr
    all_goals exact (absurd_of_eq rfl).elim
  · obtain ⟨-, rfl⟩ | ⟨k, -, -, rfl⟩ | ⟨k, -, rfl⟩ | ⟨-, rfl⟩ | ⟨-, rfl⟩ := hc
    iterate 4 exact (absurd_of_eq rfl).elim
    exact ⟨putToPd_getLsbD _ _ _ 4, putToPd_getLsbD _ _ _ 3, rfl⟩

/-! ### Steps -/

/-- A reset of any kind clears PC and stack, and the cells it draws are in the canonical form. -/
theorem State.Bounded.resetTo {s : State} (h : s.Bounded) (k : ResetKind) : (resetTo k s).Bounded := by
  have hpc : pcFits s.dev 0#13 := pcFits_of_lt _ (by decide)
  have hstack : ∀ a ∈ ([] : List ProgAddr), pcFits s.dev a := List.forall_mem_nil _
  cases k with
  | powerOn => exact ⟨hpc, hstack, Nat.zero_le _, Memory.drawn_wf _, Memory.drawn_wf _, h.program⟩
  | brownOut | watchdog | parityError | external =>
    exact ⟨hpc, hstack, Nat.zero_le _, h.ram, Memory.drawn_wf _, h.program⟩

/-- A reset leaves the device awake. -/
theorem asleep_resetTo (k : ResetKind) (s : State) : (resetTo k s).asleep = false := by
  cases k <;> rfl

/-- An interrupt entry loads an address that fits every device (60_exceptions.md R155). -/
theorem interruptEntry_bounded {s t : State} (hs : s.Bounded) (h : interruptEntry s = .ok t) : t.Bounded := by
  obtain ⟨hroom, rfl⟩ := (interruptEntry_ok_iff s t).mp h
  exact ((hs.pushed hroom hs.pc).loadPc (a := 0x0004#13) (pcFits_of_lt _ (by decide))).congr rfl rfl rfl rfl rfl rfl

theorem interruptEntry_asleep {s t : State} (h : interruptEntry s = .ok t) : t.asleep = s.asleep := by
  obtain ⟨-, rfl⟩ := (interruptEntry_ok_iff s t).mp h
  rfl

/-- Every step keeps the bounds. -/
theorem step_bounded {s t : State} (hs : s.Bounded) (h : step s = .next t) : t.Bounded := by
  obtain ⟨k, -, rfl⟩ | ⟨u, rfl, hu⟩ := step_next_cases s t h
  · exact hs.takeInput.resetTo k
  · refine State.Bounded.landMidFlags ?_
    obtain ⟨-, rfl⟩ | ⟨-, rfl⟩ | ⟨-, -, hentry⟩ | ⟨-, hinstr⟩ := hu
    · exact hs.takeInput
    · exact hs.takeInput.congr rfl rfl rfl rfl rfl rfl
    · exact interruptEntry_bounded hs.takeInput hentry
    · obtain ⟨word, i, -, -, hexec⟩ := instrStep_next _ _ hinstr
      have hready : (takeInput s).clearMustExecute.Bounded := hs.takeInput.congr rfl rfl rfl rfl rfl rfl
      exact exec_bounded hready.advancePc hexec

/-- After a step a device asleep is as SLEEP left it: it has slept through the step, or the step was SLEEP. -/
theorem step_asleep {s t : State} (h : step s = .next t)
    (hs : s.asleep = true → s.timeOut = true ∧ s.powerDown = false ∧ s.mustExecuteOne = false) :
    t.asleep = true → t.timeOut = true ∧ t.powerDown = false ∧ t.mustExecuteOne = false := by
  intro ht
  obtain ⟨k, -, rfl⟩ | ⟨u, rfl, hu⟩ := step_next_cases s t h
  · simp [asleep_resetTo] at ht
  · obtain ⟨hasleep, rfl⟩ | ⟨-, rfl⟩ | ⟨hawake, -, hentry⟩ | ⟨hawake, hinstr⟩ := hu
    · exact hs hasleep
    · exact nomatch ht
    · simp [interruptEntry_asleep hentry, hawake] at ht
    · obtain ⟨word, i, -, -, hexec⟩ := instrStep_next _ _ hinstr
      exact exec_asleep hexec hawake ht

/-- Settles O55: the bounds are kept by every operation, and what the invariant says of sleep is what SLEEP does. -/
theorem everyStepKeepsTheInvariant : Obligations.EveryStepKeepsTheInvariant := by
  intro s t hinv hstep
  obtain ⟨hbounded, hsleep⟩ := s.inv_iff.mp hinv
  exact t.inv_iff.mpr ⟨step_bounded hbounded hstep, step_asleep hstep hsleep⟩

/-- Settles O56. -/
theorem resetHasTheInvariant : Obligations.ResetHasTheInvariant :=
  State.reset.inv_iff.mpr
    ⟨⟨pcFits_of_lt _ (by decide), List.forall_mem_nil _, Nat.zero_le _, rfl, rfl, rfl⟩, fun h => nomatch h⟩

end Sys2Proof.Machine
end

section
/-! The resets of a run (10_state.md R47, R48, 60_exceptions.md R161). -/

namespace Sys2Proof.Machine

/-- A requested reset is the one taken, whatever else the step's input holds. -/
theorem step_of_requested {s : State} {r : ResetRequest} (h : (currentInput s).reset = some r) :
    step s = .next (resetTo r.kind (takeInput s)) :=
  step_of_reset s r.kind (by simp only [resetDue, h])

/-! ### Power-on Reset -/

/-- The status bits drawn at power-up are below those the spec gives. -/
theorem powerOnReset_status (s : State) : (powerOnReset s).status.extractLsb' 3 5 = 0b00011#5 :=
  BitVec.extractLsb'_append_eq_left

theorem intconAfterReset_bits (rbif : Bool) : (intconAfterReset rbif).extractLsb' 1 7 = 0#7 :=
  BitVec.extractLsb'_append_eq_left

/-- With PER and POR cleared a read of PCON gives MPEEN and BOR alone. -/
theorem pconValue_of_cleared (d : Device) (bor : Bool) :
    pconValue d (0b00#2 ++ BitVec.ofBool bor) &&& 0xFE#8 = (if d.hasPer && d.configMpeen then 0x80#8 else 0x00#8) := by
  unfold pconValue
  generalize d.hasPer = per
  generalize d.configMpeen = mpeen
  generalize d.hasBor = hasBor
  revert per mpeen hasBor bor
  decide

/-- Settles O15: the step is `powerOnReset`, whose fields are the values asked for. -/
theorem powerOnResetFromAnyState : Obligations.PowerOnResetFromAnyState := by
  intro s hreq
  exact ⟨powerOnReset (takeInput s), step_of_requested hreq, powerOnReset_status _, rfl, pconValue_of_cleared _ _,
    rfl, rfl, intconAfterReset_bits _, rfl, rfl, rfl, rfl, rfl, rfl, rfl, Memory.drawn_wf _, Memory.drawn_wf _⟩

/-! ### The other resets -/

theorem resetTo_of_ne_powerOn {k : ResetKind} (h : k ≠ .powerOn) (s : State) : resetTo k s = warmReset k s := by
  cases k with
  | powerOn => contradiction
  | brownOut | watchdog | parityError | external => rfl

theorem ResetRequest.kind_ne_powerOn {r : ResetRequest} (h : r ≠ .powerOn) : r.kind ≠ .powerOn := by
  cases r with
  | powerOn => contradiction
  | brownOut | parityError | external => exact nofun

theorem intconAfterReset_gie (rbif : Bool) : (intconAfterReset rbif).getLsbD 7 = false := by
  revert rbif; decide

/-- STATUS as a warm reset writes it: TO and PD as given, bits 7:5 cleared. -/
theorem resetStatus_bits (t p : Bool) (x : BitVec 3) :
    (0#3 ++ BitVec.ofBool t ++ BitVec.ofBool p ++ x).getLsbD 4 = t
      ∧ (0#3 ++ BitVec.ofBool t ++ BitVec.ofBool p ++ x).getLsbD 3 = p
      ∧ (0#3 ++ BitVec.ofBool t ++ BitVec.ofBool p ++ x).extractLsb' 5 3 = 0#3 := by
  revert t p x; decide

/-- TO and PD are those of R161's table. -/
theorem warmReset_toPd (k : ResetKind) (s : State) :
    ((warmReset k s).timeOut, (warmReset k s).powerDown) = toPdAfterReset k s.asleep s.timeOut s.powerDown :=
  Prod.ext (resetStatus_bits _ _ _).1 (resetStatus_bits _ _ _).2.1

/-- An external reset asleep is told by TO = 1, PD = 0; awake it leaves both (60_exceptions.md R161). -/
theorem toPdAfterReset_external (asleep t p : Bool) :
    toPdAfterReset .external asleep t p = (if asleep then true else t, if asleep then false else p) := by
  cases asleep <;> rfl

/-- The bank bits are cleared (10_state.md R48). -/
theorem warmReset_bankBits (k : ResetKind) (s : State) : (warmReset k s).status.extractLsb' 5 3 = 0#3 :=
  (resetStatus_bits _ _ _).2.2

/-- Z, DC and C stay (10_state.md R48). -/
theorem warmReset_aluBits (k : ResetKind) (s : State) :
    (warmReset k s).status.extractLsb' 0 3 = s.status.extractLsb' 0 3 :=
  BitVec.extractLsb'_append_eq_right

/-- What a Brown-out Reset does to PCON: PER and POR stay, and BOR records it with the circuit on. -/
theorem pconAfterReset_brownOut (d : Device) (p : BitVec 3) (drawn : Bool) :
    (pconAfterReset .brownOut d p drawn).extractLsb' 1 2 = p.extractLsb' 1 2
      ∧ (d.hasBor = true → d.configBoden = true → (pconAfterReset .brownOut d p drawn).getLsbD 0 = false) :=
  ⟨BitVec.extractLsb'_append_eq_left, fun hbor hboden => BitVec.getLsbD_append.trans (by simp [hbor, hboden])⟩

/-- What a parity error does to PCON: POR and BOR stay, and PER records it with the circuit on. -/
theorem pconAfterReset_parityError (d : Device) (p : BitVec 3) (drawn : Bool) :
    (pconAfterReset .parityError d p drawn).extractLsb' 0 2 = p.extractLsb' 0 2
      ∧ (pconAfterReset .parityError d p drawn).getLsbD 2
        = (if d.hasPer && d.configMpeen then false else p.getLsbD 2) :=
  ⟨BitVec.extractLsb'_append_eq_right, BitVec.getLsbD_append.trans (by simp)⟩

/-- Settles O16: what all warm resets share first, then the row of each in R161's tables. -/
theorem otherResetsFollowTheTable : Obligations.OtherResetsFollowTheTable := by
  intro s r hreq hr
  have hstep := step_of_requested hreq
  rw [resetTo_of_ne_powerOn (ResetRequest.kind_ne_powerOn hr)] at hstep
  refine ⟨warmReset r.kind (takeInput s), hstep, rfl, rfl, rfl, rfl, intconAfterReset_gie _, rfl, rfl, rfl, rfl, rfl, rfl,
    warmReset_bankBits _ _, warmReset_aluBits _ _, ?_, ?_, ?_⟩
  · rintro rfl
    obtain ⟨hto, hpd⟩ := Prod.mk.inj (warmReset_toPd .brownOut (takeInput s))
    obtain ⟨hkept, hbor⟩ := pconAfterReset_brownOut s.dev s.pcon (Config.drawBor s.draws)
    exact ⟨hto, hpd, hkept, hbor⟩
  · rintro rfl
    obtain ⟨hto, hpd⟩ := Prod.mk.inj (warmReset_toPd .parityError (takeInput s))
    obtain ⟨hkept, hper⟩ := pconAfterReset_parityError s.dev s.pcon (Config.drawBor s.draws)
    exact ⟨hto, hpd, hkept, hper⟩
  · rintro rfl
    obtain ⟨hto, hpd⟩ :=
      Prod.mk.inj ((warmReset_toPd .external (takeInput s)).trans (toPdAfterReset_external _ _ _))
    exact ⟨rfl, hto, hpd⟩

/-- Settles O14. -/
theorem resetStateHasTheSpecifiedValues : Obligations.ResetStateHasTheSpecifiedValues := by
  refine ⟨?_, rfl, ?_, rfl, rfl, ?_, ?_, rfl, rfl, rfl, rfl, rfl⟩ <;> decide

end Sys2Proof.Machine
end

section
/-! STATUS and PCON (10_state.md R14 to R26, R36 to R42): what an instruction's writes leave in them. -/

namespace Sys2Proof.Machine

/-! ### STATUS after the data write and the device logic's write -/

/-- Bits 7:5 are those of any byte that agrees on them. -/
theorem extractLsb'_bank_congr {x y : Byte} (h : ∀ j, 5 ≤ j → x.getLsbD j = y.getLsbD j) :
    x.extractLsb' 5 3 = y.extractLsb' 5 3 := by
  apply BitVec.eq_of_getLsbD_eq
  intro i hi
  simp only [BitVec.getLsbD_extractLsb', h (5 + i) (by omega)]

/-- The device logic's write of C, DC, Z leaves the other bits. -/
theorem updateFlags_getLsbD_of_ge (st : Byte) (u : FlagUpdate) {j : Nat} (hj : 3 ≤ j) :
    (updateFlags st u).getLsbD j = st.getLsbD j := by
  rw [updateFlags_getLsbD, if_neg (by omega), if_neg (by omega), if_neg (by omega)]

theorem updateFlags_carry (st : Byte) (u : FlagUpdate) : (updateFlags st u).getLsbD 0 = u.c.getD (st.getLsbD 0) :=
  updateFlags_getLsbD st u 0

theorem updateFlags_digitCarry (st : Byte) (u : FlagUpdate) :
    (updateFlags st u).getLsbD 1 = u.dc.getD (st.getLsbD 1) :=
  updateFlags_getLsbD st u 1

theorem updateFlags_zero (st : Byte) (u : FlagUpdate) : (updateFlags st u).getLsbD 2 = u.z.getD (st.getLsbD 2) :=
  updateFlags_getLsbD st u 2

/-- An instruction that stores its result elsewhere. -/
theorem statusAfter_of_updateFlags {s t : State} {u : FlagUpdate} (r : Byte)
    (h : t.status = updateFlags s.status u) : StatusAfter s t false r u := by
  refine ⟨?_, ?_, ?_, ?_, ?_, ?_⟩
  · rw [State.timeOut, h]; exact updateFlags_getLsbD_of_ge _ _ (by omega)
  · rw [State.powerDown, h]; exact updateFlags_getLsbD_of_ge _ _ (by omega)
  · rw [h]; exact extractLsb'_bank_congr fun j hj => updateFlags_getLsbD_of_ge _ _ (by omega)
  · rw [State.carry, h]; exact updateFlags_carry _ _
  · rw [State.digitCarry, h]; exact updateFlags_digitCarry _ _
  · rw [State.zero, h]; exact updateFlags_zero _ _

/-- An instruction that stores its result in STATUS: the data write, then the device logic's (10_state.md R26). -/
theorem statusAfter_of_writeStatus {s t : State} {r : Byte} {u : FlagUpdate}
    (h : t.status = updateFlags (writeStatus s.status r u.isNothing) u) : StatusAfter s t true r u := by
  have low (j : Nat) (hj : j < 3) : (writeStatus s.status r u.isNothing).getLsbD j
      = if true && u.isNothing then r.getLsbD j else s.status.getLsbD j := by
    rw [writeStatus_getLsbD, if_pos hj, Bool.true_and]
    split <;> rfl
  refine ⟨?_, ?_, ?_, ?_, ?_, ?_⟩
  · rw [State.timeOut, h, updateFlags_getLsbD_of_ge _ _ (by omega)]; exact writeStatus_getLsbD _ _ _ 4
  · rw [State.powerDown, h, updateFlags_getLsbD_of_ge _ _ (by omega)]; exact writeStatus_getLsbD _ _ _ 3
  · rw [h, if_pos rfl]
    refine extractLsb'_bank_congr fun j hj => ?_
    rw [updateFlags_getLsbD_of_ge _ _ (by omega), writeStatus_getLsbD, if_neg (by omega), if_neg (by omega)]
  · rw [State.carry, h, updateFlags_carry, low 0 (by omega)]; rfl
  · rw [State.digitCarry, h, updateFlags_digitCarry, low 1 (by omega)]; rfl
  · rw [State.zero, h, updateFlags_zero, low 2 (by omega)]; rfl

/-- Settles O43: STATUS is accessible wherever it stands, and a write of it is `writeStatus`. -/
theorem writeToStatusIsRestricted : Obligations.WriteToStatusIsRestricted := by
  intro s a v u hcell
  have hpoke : poke s a v u.isNothing = s.setStatus (writeStatus s.status v u.isNothing) := by
    simp only [poke, hcell]
  refine ⟨_, writeFile_of_ok s a v _ (accessFault_eq_none_of_fileCell hcell nofun), ?_, ?_⟩
  · rw [hpoke]; rfl
  · exact statusAfter_of_writeStatus (by rw [hpoke]; rfl)

/-- Settles O44. -/
theorem pconReadsAndWrites : Obligations.PconReadsAndWrites := by
  intro s a v q hcell
  have hpeek (t : State) (hdev : t.dev = s.dev) : peek t a = pconValue s.dev t.pcon := by
    simp only [peek, hdev, hcell]
  have hpoke : poke s a v q = { s with pcon := pconStore s.dev s.pcon v } := by
    simp only [poke, hcell]
  refine ⟨fun n => ?_, _, writeFile_of_ok s a v q (accessFault_eq_none_of_fileCell hcell nofun), ?_, ?_⟩
  · rw [hpeek s rfl]; exact pconValue_getLsbD _ _ n
  · rw [hpoke]
  · rw [hpeek _ (poke_dev ..), hpoke]; exact pconValue_pconStore _ _ _

/-! ### STATUS after an instruction -/

/-- The cell an instruction writes, when its destination is known. -/
theorem cellWrittenBy_of_dest {i : Instr} {f : FileField} {d : Dest}
    (h : fileWrittenBy i = if d = .f then some f else none) (s : State) :
    cellWrittenBy i s = if d = .f then some (fileCell s.dev (operandAddr s f)) else none := by
  rw [cellWrittenBy, h]
  cases d <;> rfl

theorem statusAfter_of_delivered {i : Instr} {s t : State} (h : DeliveredTo i s t) :
    ∃ r u, RowIs i u ∧ StatusAfter s t (decide (cellWrittenBy i s = some .status)) r u := by
  obtain ⟨f, d, out, -, hdest, -, hrow, ht⟩ := h.eq_destState
  refine ⟨out.result, out.flags, hrow, ?_⟩
  rw [cellWrittenBy_of_dest hdest]
  cases d with
  | w => exact statusAfter_of_updateFlags _ (by rw [ht]; rfl)
  | f =>
    by_cases hcell : fileCell s.dev (operandAddr s f) = .status
    · simp only [hcell, if_true, decide_true]
      exact statusAfter_of_writeStatus (by rw [ht]; simp [poke_status, hcell])
    · simp only [hcell, if_true, Option.some.injEq, decide_false]
      exact statusAfter_of_updateFlags _ (by rw [ht]; simp [poke_status, hcell])

/-- STATUS after every instruction but the two that write TO and PD: the status bits of its row are computed, and a result
is stored when STATUS is its destination. -/
theorem exec_statusAfter {i : Instr} {s t : State} (h : exec i s = .next t) (hclrwdt : i ≠ .clrwdt) (hsleep : i ≠ .sleep) :
    ∃ r u, RowIs i u ∧ StatusAfter s t (decide (cellWrittenBy i s = some .status)) r u := by
  have unchanged (hrow : RowIs i .nothing) (hdest : fileWrittenBy i = none) (ht : t.status = s.status) :
      ∃ r u, RowIs i u ∧ StatusAfter s t (decide (cellWrittenBy i s = some .status)) r u := by
    refine ⟨0#8, .nothing, hrow, ?_⟩
    simp only [cellWrittenBy, hdest]
    exact statusAfter_of_updateFlags _ ht
  have emptyRow : RowIs .nop .nothing := ⟨rfl, rfl, rfl, rfl⟩
  rcases exec_next_cases i s t h with hd | hb | hl | hr | hc
  · exact statusAfter_of_delivered hd
  · obtain ⟨f, b, c, rfl | rfl, -, rfl⟩ := hb
    all_goals exact unchanged emptyRow rfl rfl
  · obtain ⟨out, hdest, -, -, hrow, -, -, rfl⟩ := hl
    refine ⟨out.result, out.flags, hrow, ?_⟩
    simp only [cellWrittenBy, hdest]
    exact statusAfter_of_updateFlags _ rfl
  · obtain ⟨a, rest, -, ⟨rfl, rfl⟩ | ⟨k, rfl, rfl⟩ | ⟨rfl, rfl⟩⟩ := hr
    all_goals exact unchanged emptyRow rfl rfl
  · obtain ⟨rfl, rfl⟩ | ⟨k, rfl, -, rfl⟩ | ⟨k, rfl, rfl⟩ | ⟨rfl, -⟩ | ⟨rfl, -⟩ := hc
    iterate 3 exact unchanged emptyRow rfl rfl
    · contradiction
    · contradiction

/-- CLRWDT and SLEEP write TO and PD and no other bit of STATUS. -/
theorem exec_clrwdt_sleep_status {i : Instr} {s t : State} (h : exec i s = .next t) (hi : i = .clrwdt ∨ i = .sleep) :
    ∃ p, t.status = putToPd s.status true p := by
  obtain rfl | rfl := hi <;> cases h
  · exact ⟨true, rfl⟩
  · exact ⟨false, rfl⟩

/-- Settles O50: with STATUS as destination or elsewhere, the writes of STATUS keep TO and PD. -/
theorem onlyClrwdtAndSleepWriteToPd : Obligations.OnlyClrwdtAndSleepWriteToPd := by
  intro i s t h hclrwdt hsleep
  obtain ⟨r, u, -, hto, hpd, -⟩ := exec_statusAfter h hclrwdt hsleep
  exact ⟨hto, hpd⟩

/-- A status bit outside the row of the table has no computed value. -/
theorem getD_of_not_inRow {x : Option Bool} {inRow : Bool} (hrow : inRow = x.isSome) (hno : inRow = false) (old : Bool) :
    x.getD old = old := by
  cases x with
  | none => rfl
  | some b => simp [hno] at hrow

/-- Settles O51: CLRWDT and SLEEP write TO and PD, every other instruction the bits that its row computes. -/
theorem statusBitsOutsideTheRowStay : Obligations.StatusBitsOutsideTheRowStay := by
  intro i s t h hdest
  by_cases hi : i = .clrwdt ∨ i = .sleep
  · obtain ⟨p, hst⟩ := exec_clrwdt_sleep_status h hi
    have low (j : Nat) (h3 : j ≠ 3) (h4 : j ≠ 4) : t.status.getLsbD j = s.status.getLsbD j := by
      rw [hst, putToPd_getLsbD, if_neg h3, if_neg h4]
    have hrow : (statusBitsOf i).toPd = true := by obtain rfl | rfl := hi <;> rfl
    refine ⟨fun _ => low 0 (by omega) (by omega), fun _ => low 1 (by omega) (by omega),
      fun _ => low 2 (by omega) (by omega), fun hno => ?_,
      extractLsb'_bank_congr fun j hj => low j (by omega) (by omega)⟩
    simp [hrow] at hno
  · obtain ⟨hclrwdt, hsleep⟩ := not_or.mp hi
    obtain ⟨r, u, ⟨hrowC, hrowDc, hrowZ, -⟩, hst⟩ := exec_statusAfter h hclrwdt hsleep
    rw [decide_eq_false hdest] at hst
    obtain ⟨hto, hpd, hbank, hc, hdc, hz⟩ := hst
    exact ⟨fun hno => hc.trans (getD_of_not_inRow hrowC hno _),
      fun hno => hdc.trans (getD_of_not_inRow hrowDc hno _),
      fun hno => hz.trans (getD_of_not_inRow hrowZ hno _), fun _ => ⟨hto, hpd⟩, hbank⟩

end Sys2Proof.Machine
end

section
/-! What instructions leave unchanged, by the shape of the instruction, and where an instruction stops that names an
inaccessible register. -/

namespace Sys2Proof.Machine

/-! ### Inaccessible registers -/

/-- An instruction that names a register faults as the access to it does. -/
theorem exec_of_accessFault {i : Instr} {s : State} {f : FileField} {e : Fault} (hf : fileFieldOf i = some f)
    (he : accessFault s (operandAddr s f) = some e) : exec i s = .fault e := by
  cases i with
  | addwf g d | andwf g d | comf g d | decf g d | incf g d | iorwf g d | movf g d | rlf g d | rrf g d | subwf g d
  | swapf g d | xorwf g d =>
    cases hf
    exact byteOp_of_fault s f d _ e he
  | bcf g b | bsf g b =>
    cases hf
    exact byteOp_of_fault s f .f _ e he
  | decfsz g d | incfsz g d =>
    cases hf
    exact byteOpSkip_of_fault s f d _ e he
  | clrf g | movwf g =>
    cases hf
    exact storeOp_of_fault s f _ e he
  | btfsc g b =>
    cases hf
    exact bitTest_of_fault s f (fun x => !x.getLsbD b.toNat) e he
  | btfss g b =>
    cases hf
    exact bitTest_of_fault s f (fun x => x.getLsbD b.toNat) e he
  | clrw | nop | addlw | andlw | call | clrwdt | goto | iorlw | movlw | retfie | retlw | ret | sleep | sublw | xorlw =>
    cases hf

/-- Bit 8 of an address tells banks 2 and 3. -/
theorem reservedBank_iff (d : Device) (a : DataAddr) : reservedBank d a = true ↔ d.banks = .two ∧ 256 ≤ a.toNat := by
  have hbit : a.getLsbD 8 = decide (256 ≤ a.toNat) := BitVec.msb_eq_decide a
  simp only [reservedBank, hbit, Bool.and_eq_true, decide_eq_true_eq]

/-- Settles O42. -/
theorem inaccessibleRegistersFault : Obligations.InaccessibleRegistersFault := by
  intro i s f hf
  refine ⟨fun hbank => exec_of_accessFault hf ?_, fun hbank hcell => exec_of_accessFault hf ?_⟩
  · rw [accessFault, if_pos ((reservedBank_iff _ _).mpr hbank)]
  · rw [accessFault, if_neg (mt (reservedBank_iff _ _).mp hbank), if_pos hcell]

/-! ### The stack -/

theorem stack_of_delivered {i : Instr} {s t : State} (h : DeliveredTo i s t) : t.stack = s.stack := by
  obtain ⟨f, d, out, -, -, -, -, ht⟩ := h.eq_destState
  rw [ht]
  cases d with
  | w => rfl
  | f => exact poke_stack _ _ _ _

/-- Settles O52: of the shapes of instructions, the returns and CALL alone touch the stack. -/
theorem onlyCallsAndReturnsTouchTheStack : Obligations.OnlyCallsAndReturnsTouchTheStack := by
  intro i s t h
  rcases exec_next_cases i s t h with hd | hb | hl | hr | hc
  · rw [stack_of_delivered hd]
    obtain ⟨f, d, out, hf, -⟩ := hd
    split
    iterate 4 exact nomatch hf
    rfl
  · obtain ⟨f, b, c, rfl | rfl, -, rfl⟩ := hb <;> rfl
  · obtain ⟨out, -, -, hw, -, hstack, hretlw, rfl⟩ := hl
    split
    · exact nomatch hw
    · exact nomatch hw
    · next k => exact absurd rfl (hretlw k)
    · exact nomatch hw
    · rfl
  · obtain ⟨a, rest, hs, ⟨rfl, rfl⟩ | ⟨k, rfl, rfl⟩ | ⟨rfl, rfl⟩⟩ := hr
    all_goals simp [hs]
  · obtain ⟨rfl, rfl⟩ | ⟨k, rfl, -, rfl⟩ | ⟨k, rfl, rfl⟩ | ⟨rfl, rfl⟩ | ⟨rfl, rfl⟩ := hc
    all_goals rfl

/-! ### Registers, program memory and the environment -/

/-- What no instruction changes: program memory, the device and the environment. -/
def SameEnvironment (s t : State) : Prop :=
  t.program = s.program ∧ t.dev = s.dev ∧ t.inputs = s.inputs ∧ t.intPin = s.intPin
    ∧ t.peripheralReq = s.peripheralReq ∧ t.platformPending = s.platformPending ∧ t.ioIn = s.ioIn

/-- What an instruction that takes `s` to `t` leaves: W and the cells that are not its destination, the flags raised inside
the step, and the environment. -/
def RegistersFrame (i : Instr) (s t : State) : Prop :=
  (writesW i = false → t.w = s.w)
    ∧ (∀ c, cellWrittenBy i s ≠ some c → c ≠ .status → c ≠ .pcl → (i = .retfie → c ≠ .intcon) →
        contents t c = contents s c)
    ∧ (cellWrittenBy i s ≠ some .intcon → t.midFlags = s.midFlags)
    ∧ SameEnvironment s t

/-- Every cell but STATUS and PCL rests on these nine fields. -/
theorem contents_congr {s t : State} {c : FileCell} (hstatus : c ≠ .status) (hpcl : c ≠ .pcl)
    (h : t = { s with
      w := t.w, status := t.status, pc := t.pc, stack := t.stack, wdtCount := t.wdtCount, prescaler := t.prescaler,
      asleep := t.asleep, draws := t.draws, cycles := t.cycles }) :
    contents t c = contents s c := by
  rw [h]
  cases c with
  | status | pcl => contradiction
  | optionReg | pcon | tmr0 | io | gpr | indf | fsr | pclath | intcon | unimplemented => rfl

/-- A write of INTCON changes no other cell. -/
theorem contents_setIntcon (s : State) (v : Byte) {c : FileCell} (h : c ≠ .intcon) :
    contents { s with intcon := v } c = contents s c := by
  cases c with
  | intcon => contradiction
  | status | optionReg | pcon | tmr0 | io | gpr | indf | fsr | pcl | pclath | unimplemented => rfl

theorem w_of_delivered {i : Instr} {s t : State} (h : DeliveredTo i s t) (hw : writesW i = false) : t.w = s.w := by
  obtain ⟨f, d, out, -, -, hwd, -, ht⟩ := h.eq_destState
  rw [ht]
  cases d with
  | w => simp [hw] at hwd
  | f => exact poke_w _ _ _ _

theorem contents_of_delivered {i : Instr} {s t : State} (h : DeliveredTo i s t) {c : FileCell}
    (hc : cellWrittenBy i s ≠ some c) (hstatus : c ≠ .status) (hpcl : c ≠ .pcl) : contents t c = contents s c := by
  obtain ⟨f, d, out, -, hdest, -, -, ht⟩ := h.eq_destState
  rw [cellWrittenBy_of_dest hdest] at hc
  rw [ht]
  cases d with
  | w => exact contents_congr hstatus hpcl rfl
  | f =>
    have hne : fileCell s.dev (operandAddr s f) ≠ c := fun hcell => hc (by rw [if_pos rfl, hcell])
    exact (contents_congr hstatus hpcl rfl).trans (contents_poke_other s _ out.result _ c hstatus hpcl hne)

theorem midFlags_of_delivered {i : Instr} {s t : State} (h : DeliveredTo i s t)
    (hc : cellWrittenBy i s ≠ some .intcon) : t.midFlags = s.midFlags := by
  obtain ⟨f, d, out, -, hdest, -, -, ht⟩ := h.eq_destState
  rw [cellWrittenBy_of_dest hdest] at hc
  rw [ht]
  cases d with
  | w => rfl
  | f =>
    have hne : fileCell s.dev (operandAddr s f) ≠ .intcon := fun hcell => hc (by rw [if_pos rfl, hcell])
    exact (poke_midFlags ..).trans (if_neg hne)

theorem sameEnvironment_of_delivered {i : Instr} {s t : State} (h : DeliveredTo i s t) : SameEnvironment s t := by
  obtain ⟨f, d, out, -, -, -, -, ht⟩ := h.eq_destState
  rw [ht]
  cases d <;> simp [SameEnvironment]

/-- An instruction that changes none of the registers but W, STATUS and the PC. -/
theorem registers_of_eq {i : Instr} {s t : State} (hw : writesW i = false → t.w = s.w)
    (h : t = { s with
      w := t.w, status := t.status, pc := t.pc, stack := t.stack, wdtCount := t.wdtCount, prescaler := t.prescaler,
      asleep := t.asleep, draws := t.draws, cycles := t.cycles }) :
    RegistersFrame i s t :=
  ⟨hw, fun _ _ hstatus hpcl _ => contents_congr hstatus hpcl h, fun _ => by rw [h],
    by rw [h]; exact ⟨rfl, rfl, rfl, rfl, rfl, rfl, rfl⟩⟩

/-- RETFIE changes GIE besides the PC and the stack (60_exceptions.md R156). -/
theorem registers_of_retfie (s : State) (a : ProgAddr) (rest : List ProgAddr) (v : Byte) :
    RegistersFrame .retfie s { s with stack := rest, pc := a, cycles := s.cycles + 1, intcon := v } := by
  refine ⟨fun _ => rfl, fun c _ hstatus hpcl hintcon => ?_, fun _ => rfl, rfl, rfl, rfl, rfl, rfl, rfl, rfl⟩
  exact (contents_setIntcon { s with stack := rest, pc := a, cycles := s.cycles + 1 } v (hintcon rfl)).trans
    (contents_congr hstatus hpcl rfl)

/-- Settles O53: a delivered result goes to its destination; the other shapes write W, the PC, the stack, STATUS or, for
RETFIE, GIE alone. -/
theorem registersChangeOnlyAsDestination : Obligations.RegistersChangeOnlyAsDestination := by
  intro i s t h
  show RegistersFrame i s t
  rcases exec_next_cases i s t h with hd | hb | hl | hr | hc
  · exact ⟨w_of_delivered hd, fun c hc hstatus hpcl _ => contents_of_delivered hd hc hstatus hpcl,
      midFlags_of_delivered hd, sameEnvironment_of_delivered hd⟩
  · obtain ⟨f, b, c, -, -, rfl⟩ := hb
    exact registers_of_eq (fun _ => rfl) rfl
  · obtain ⟨out, -, -, hw, -, -, -, rfl⟩ := hl
    exact registers_of_eq (fun hno => absurd hw (by simp [hno])) rfl
  · obtain ⟨a, rest, -, ⟨rfl, rfl⟩ | ⟨k, rfl, rfl⟩ | ⟨rfl, rfl⟩⟩ := hr
    · exact registers_of_eq (fun _ => rfl) rfl
    · exact registers_of_eq (fun hno => nomatch hno) rfl
    · exact registers_of_retfie s a rest _
  · obtain ⟨-, rfl⟩ | ⟨k, -, -, rfl⟩ | ⟨k, -, rfl⟩ | ⟨-, rfl⟩ | ⟨-, rfl⟩ := hc
    all_goals exact registers_of_eq (fun _ => rfl) rfl

end Sys2Proof.Machine
end

section
/-! The default file map (20_memory.md R55) and the prescaler's rates (10_state.md R33 to R35). -/

namespace Sys2Proof.Machine

/-! ### The file map -/

/-- STATUS stands at its offset in every bank the device has (10_state.md R27). -/
theorem fileCell_statusOffset {d : Device} {a : DataAddr} (hbank : reservedBank d a = false)
    (hoffset : a.extractLsb' 0 7 = d.statusOffset) : fileCell d a = .status := by
  simp [fileCell, hbank, hoffset]

/-- The default device has four banks and no replacement. -/
theorem fileCell_default (a : DataAddr) :
    fileCell Device.default a = if a.extractLsb' 0 7 = 0x03#7 then .status else withPcon true (defaultCell a) := rfl

/-- The general purpose cells begin at offset 20h. -/
theorem fileCell_default_gpr (bank : BitVec 2) {f : FileField} (hf : 0x20 ≤ f.toNat) :
    fileCell Device.default (bank ++ f) = .gpr (bank ++ f) := by
  have hoffset : ((bank ++ f).extractLsb' 0 7 : FileField) = f := BitVec.extractLsb'_append_eq_right
  have hne : f ≠ 0x03#7 := by rintro rfl; exact absurd hf (by decide)
  rw [fileCell_default, hoffset, if_neg hne]
  simp only [defaultCell, hoffset]
  iterate 6 rw [if_neg (by omega)]
  split
  · rw [bank0Cell, if_neg (by omega), if_neg (by omega)]; rfl
  · rw [bank1Cell, if_neg (by omega), if_neg (by omega), if_neg (by omega)]; rfl
  · rw [bank2Cell, if_neg (by omega), if_neg (by omega), if_neg (by omega)]; rfl
  · rw [bank3Cell, if_neg (by omega), if_neg (by omega)]; rfl

theorem bank_eq_of_bit1_clear {bank : BitVec 2} : bank.getLsbD 1 = false → bank = 0#2 ∨ bank = 1#2 := by
  revert bank; decide

/-- The I/O registers of banks 0 and 1, apart from PCON. -/
theorem fileCell_default_io {bank : BitVec 2} {f : FileField} (hbank : bank.getLsbD 1 = false)
    (hf : (0x05 ≤ f.toNat ∧ f.toNat ≤ 0x09) ∨ (0x0C ≤ f.toNat ∧ f.toNat ≤ 0x1F)) (hpcon : bank ++ f ≠ 0x08E#9) :
    fileCell Device.default (bank ++ f) = .io (bank ++ f) := by
  have hoffset : ((bank ++ f).extractLsb' 0 7 : FileField) = f := BitVec.extractLsb'_append_eq_right
  have hbits : ((bank ++ f).extractLsb' 7 2 : BitVec 2) = bank := BitVec.extractLsb'_append_eq_left
  have hne : f ≠ 0x03#7 := by rintro rfl; exact absurd hf (by decide)
  rw [fileCell_default, hoffset, if_neg hne]
  simp only [defaultCell, hoffset, hbits]
  iterate 6 rw [if_neg (by omega)]
  obtain rfl | rfl := bank_eq_of_bit1_clear hbank
  · show withPcon true (bank0Cell _ f.toNat) = _
    rw [bank0Cell, if_neg (by omega), if_pos (by omega)]; rfl
  · have h0E : f.toNat ≠ 0x0E := fun h => hpcon (by rw [show f = 0x0E#7 from BitVec.eq_of_toNat_eq h]; rfl)
    show withPcon true (bank1Cell _ f.toNat) = _
    rw [bank1Cell, if_neg (by omega), if_neg h0E, if_pos (by omega)]; rfl

/-- Settles O40. -/
theorem fileMapPlacesTheRegisters : Obligations.FileMapPlacesTheRegisters := by
  refine ⟨fun d a => fileCell_statusOffset, fun bank f => ⟨?_, ?_, ?_, ?_, ?_, ?_, ?_, fileCell_default_io,
    fileCell_default_gpr bank, by decide, by decide, by decide⟩⟩
  all_goals
    rintro rfl
    revert bank
    decide

/-! ### The prescaler -/

theorem prescalerSelect_eq (o : Byte) : prescalerSelect o = o.toNat % 8 := by
  simp [prescalerSelect, BitVec.extractLsb'_toNat]

/-- Settles O48. -/
theorem prescalerRates : Obligations.PrescalerRates := by
  intro o
  simp only [timer0Divisor, wdtDivisor, prescalerToWdt, prescalerSelect_eq]
  refine ⟨fun hpsa => ?_, fun hpsa => ?_⟩
  · rw [hpsa]; exact ⟨Nat.pow_succ', rfl⟩
  · rw [hpsa]; exact ⟨rfl, rfl⟩

end Sys2Proof.Machine
end

section
/-! Addresses and reads of file registers (20_memory.md R56 to R62, R66, R68). -/

namespace Sys2Proof.Machine

/-! ### Operand addresses -/

theorem directAddr_toNat (s : State) (f : FileField) :
    (directAddr s f).toNat = s.status.toNat / 32 % 4 * 128 + f.toNat := by
  have hrp : s.rp.toNat = s.status.toNat / 32 % 4 := by
    simp [State.rp, BitVec.extractLsb'_toNat, Nat.shiftRight_eq_div_pow]
  rw [directAddr, BitVec.toNat_append, ← Nat.shiftLeft_add_eq_or_of_lt f.isLt, Nat.shiftLeft_eq, hrp]

theorem indirectAddr_toNat (s : State) : (indirectAddr s).toNat = s.status.toNat / 128 * 256 + s.fsr.toNat := by
  have hirp : s.irp.toNat = s.status.toNat / 128 := by
    have hlt := s.status.isLt
    simp only [State.irp, BitVec.extractLsb'_toNat, Nat.shiftRight_eq_div_pow]
    omega
  rw [indirectAddr, BitVec.toNat_append, ← Nat.shiftLeft_add_eq_or_of_lt s.fsr.isLt, Nat.shiftLeft_eq, hirp]

/-- Settles O39: which of the two addresses is used, by whether the direct one names INDF, and each as a number. -/
theorem operandAddressIsDirectOrIndirect : Obligations.OperandAddressIsDirectOrIndirect := by
  intro s f
  refine ⟨fun hdirect => ?_, fun hindf => ?_⟩
  · rw [operandAddr, if_neg hdirect, directAddr_toNat]
  · rw [operandAddr, if_pos hindf, indirectAddr_toNat]

/-! ### Reads -/

/-- A read of a register that is neither TMR0 nor a pin register returns what the register holds. -/
theorem peek_eq_contents {s : State} {a : DataAddr} {c : FileCell} (hcell : fileCell s.dev a = c)
    (hc : asksOracle c = false) : peek s a = contents s c := by
  subst hcell
  unfold peek
  split <;> simp_all [contents, asksOracle]

/-- A read of TMR0 or of a pin register returns the platform's value. -/
theorem peek_eq_oracleRead {s : State} {a : DataAddr} {c : FileCell} (hcell : fileCell s.dev a = c)
    (hc : asksOracle c = true) : peek s a = oracleRead s a := by
  subst hcell
  unfold peek
  split <;> simp_all [asksOracle]

theorem oracleRead_of_given {s : State} {v : Byte} (h : s.ioIn = some v) (a : DataAddr) : oracleRead s a = v := by
  rw [oracleRead, h, Option.getD_some]

theorem asksOracle_eq_true_iff (c : FileCell) : asksOracle c = true ↔ c = .tmr0 ∨ ∃ n, c = .io n := by
  cases c <;> simp [asksOracle]

/-- The low byte of a program address. -/
theorem lowByte_toNat (a : ProgAddr) : (a.extractLsb' 0 8).toNat = a.toNat % 256 := by
  simp [BitVec.extractLsb'_toNat]

/-- Settles O41: each clause is one of the two kinds of read, at one cell. -/
theorem readsOfFileRegisters : Obligations.ReadsOfFileRegisters := by
  intro s a hbank hreg
  have haccess : accessFault s a = none := (accessFault_none_iff s a).mpr ⟨hbank, hreg⟩
  refine ⟨⟨_, readFile_of_ok s a haccess⟩, fun h => peek_eq_contents h rfl, fun h => peek_eq_contents h rfl,
    fun h => peek_eq_contents h rfl, fun h => peek_eq_contents h rfl, fun h => ?pclath, fun h => ?pcl,
    fun h => peek_eq_contents h rfl, fun n h => peek_eq_contents h rfl, fun htmr0 hio => ?stored,
    fun v hcell hgiven => ?given⟩
  case pclath =>
    rw [peek_eq_contents h rfl]
    exact BitVec.toNat_setWidth_of_le (by omega)
  case pcl => rw [peek_eq_contents h rfl]; exact lowByte_toNat s.pc
  case stored =>
    refine peek_eq_contents rfl (Bool.eq_false_iff.mpr fun hask => ?_)
    obtain hcell | ⟨n, hcell⟩ := (asksOracle_eq_true_iff _).mp hask
    · exact htmr0 hcell
    · exact hio n hcell
  case given =>
    rw [peek_eq_oracleRead rfl ((asksOracle_eq_true_iff _).mpr hcell), oracleRead_of_given hgiven]

end Sys2Proof.Machine
end

section
/-! Writes of the registers that do more than store a byte: TMR0 and the prescaler (20_memory.md R65), and an I/O register
written with its own pins (R62 to R64). -/

namespace Sys2Proof.Machine

/-! ### TMR0 and the prescaler -/

theorem cellWrittenBy_of_no_dest {i : Instr} (h : fileWrittenBy i = none) (s : State) : cellWrittenBy i s = none := by
  rw [cellWrittenBy, h, Option.map_none]

/-- The prescaler count that a data instruction leaves: a write of TMR0 clears it when it serves Timer0. -/
def prescalerAfter (i : Instr) (s : State) : Byte :=
  if cellWrittenBy i s = some .tmr0 ∧ prescalerToWdt s.optionReg = false then 0x00#8 else s.prescaler

theorem prescalerAfter_of_tmr0 {i : Instr} {s : State} (h : cellWrittenBy i s = some .tmr0) :
    prescalerAfter i s = if s.optionReg.getLsbD 3 then s.prescaler else 0x00#8 := by
  cases hpsa : s.optionReg.getLsbD 3 with
  | false => exact if_pos ⟨h, hpsa⟩
  | true => exact if_neg fun ⟨_, hclear⟩ => Bool.false_ne_true (hclear.symm.trans hpsa)

theorem prescalerAfter_of_ne {i : Instr} {s : State} (h : cellWrittenBy i s ≠ some .tmr0) :
    prescalerAfter i s = s.prescaler :=
  if_neg fun hboth => h hboth.1

theorem prescaler_of_delivered {i : Instr} {s t : State} (h : DeliveredTo i s t) : t.prescaler = prescalerAfter i s := by
  obtain ⟨f, d, out, -, hdest, -, -, ht⟩ := h.eq_destState
  rw [prescalerAfter, cellWrittenBy_of_dest hdest, ht]
  cases d with
  | w => rfl
  | f => simp [poke_prescaler]

/-- The prescaler count after every instruction but the two that clear it with the Watchdog count. -/
theorem exec_prescaler {i : Instr} {s t : State} (h : exec i s = .next t) (hclrwdt : i ≠ .clrwdt) (hsleep : i ≠ .sleep) :
    t.prescaler = prescalerAfter i s := by
  have unchanged (hdest : fileWrittenBy i = none) (ht : t.prescaler = s.prescaler) :
      t.prescaler = prescalerAfter i s := by
    rw [prescalerAfter_of_ne (by rw [cellWrittenBy_of_no_dest hdest]; exact nofun), ht]
  rcases exec_next_cases i s t h with hd | hb | hl | hr | hc
  · exact prescaler_of_delivered hd
  · obtain ⟨f, b, c, rfl | rfl, -, rfl⟩ := hb
    all_goals exact unchanged rfl rfl
  · obtain ⟨out, hdest, -, -, -, -, -, rfl⟩ := hl
    exact unchanged hdest rfl
  · obtain ⟨a, rest, -, ⟨rfl, rfl⟩ | ⟨k, rfl, rfl⟩ | ⟨rfl, rfl⟩⟩ := hr
    all_goals exact unchanged rfl rfl
  · obtain ⟨rfl, rfl⟩ | ⟨k, rfl, -, rfl⟩ | ⟨k, rfl, rfl⟩ | ⟨rfl, -⟩ | ⟨rfl, -⟩ := hc
    iterate 3 exact unchanged rfl rfl
    · contradiction
    · contradiction

/-- Settles O45: TMR0 and OPTION_REG change only as destination, and the prescaler count is `prescalerAfter`. -/
theorem writeOfTmr0ClearsThePrescaler : Obligations.WriteOfTmr0ClearsThePrescaler := by
  intro i s t h
  obtain ⟨-, hcells, -⟩ := registersChangeOnlyAsDestination i s t h
  refine ⟨fun hwrites => ⟨?_, ?_⟩, fun hother => ⟨?_, fun hclrwdt hsleep => ?_⟩⟩
  · have hclrwdt : i ≠ .clrwdt := by rintro rfl; exact nomatch hwrites
    have hsleep : i ≠ .sleep := by rintro rfl; exact nomatch hwrites
    exact (exec_prescaler h hclrwdt hsleep).trans (prescalerAfter_of_tmr0 hwrites)
  · exact hcells .optionReg (by rw [hwrites]; exact nofun) nofun nofun fun _ => nofun
  · exact hcells .tmr0 hother nofun nofun fun _ => nofun
  · exact (exec_prescaler h hclrwdt hsleep).trans (prescalerAfter_of_ne hother)

/-! ### An I/O register written with its own pins -/

/-- MOVF of an accessible register onto itself writes back the value read, and Z. -/
theorem exec_movf_f_of_ok {s : State} {f : FileField} (h : accessFault s (operandAddr s f) = none) :
    exec (.movf f .f) s = .next
      ((poke (afterRead s (operandAddr s f)) (operandAddr s f) (operandValue s f) false).setFlags
        (FlagUpdate.ofZero (operandValue s f))) :=
  byteOp_of_ok s f .f zeroOut h

/-- Settles O46: the value read is the pins', and it is written to the latch. -/
theorem movfOfAPortCopiesThePins : Obligations.MovfOfAPortCopiesThePins := by
  intro s f n pins hinv hcell hpins
  obtain ⟨hbounded, -⟩ := s.inv_iff.mp hinv
  have haccess : accessFault s (operandAddr s f) = none := accessFault_eq_none_of_fileCell hcell nofun
  have hread : operandValue s f = pins := (peek_eq_oracleRead hcell rfl).trans (oracleRead_of_given hpins _)
  have hlatches (m : DataAddr) :
      contents ((poke (afterRead s (operandAddr s f)) (operandAddr s f) pins false).setFlags (FlagUpdate.ofZero pins))
        (.io m) = if m = n then pins else contents s (.io m) := by
    rw [contents_setFlags _ _ (.io m) nofun,
      contents_poke (afterRead s _) _ _ _ hbounded.ram hbounded.latches (.io m) nofun nofun,
      State.dev_afterRead, hcell, contents_afterRead]
    simp only [FileCell.io.injEq, keeps]
  rw [exec_movf_f_of_ok haccess, hread]
  refine ⟨_, rfl, (hlatches n).trans (if_pos rfl), ?_, updateFlags_zero _ _, ?_,
    fun m hm => (hlatches m).trans (if_neg hm)⟩
  · simp [poke_outputs, hcell]
  · simp

end Sys2Proof.Machine
end

section
/-! The program memory (20_memory.md R51, R52, R78) and the steps that fetch from it: an instruction that reads or writes
PCL (R66, R67). -/

namespace Sys2Proof.Machine

/-! ### The step of an instruction -/

/-- A step that neither resets, sleeps, nor enters an interrupt is that of an instruction, whether or not it was owed. -/
theorem step_of_runsInstruction {s : State} (h : RunsInstruction s) :
    step s = landFlags (instrStep (takeInput s).clearMustExecute) := by
  obtain ⟨hreset, hawake, hruns⟩ := h
  rw [step_of_no_reset s hreset, if_neg (by simp [hawake])]
  cases hmust : s.mustExecuteOne with
  | true => rfl
  | false =>
    have hentry : ((takeInput s).gie && intPending (takeInput s)) = false := by
      obtain howed | hgie | hpending := hruns
      · simp [hmust] at howed
      · rw [hgie, Bool.false_and]
      · rw [hpending, Bool.and_false]
    rw [hentry, clearMustExecute_of_false (takeInput s) hmust]
    rfl

/-- The step of a decoded instruction is its meaning after the advance of the PC, with the flags raised inside the step. -/
theorem step_of_fetched {s : State} {word : InstrWord} {i : Instr} (h : RunsInstruction s)
    (hword : s.program[s.pc.toNat]? = some word) (hdecode : decode word = .ok i) :
    step s = landFlags (exec i (fetched s)) := by
  rw [step_of_runsInstruction h, instrStep_of_decoded (takeInput s).clearMustExecute word i hword hdecode]
  rfl

/-! ### Program memory -/

theorem progRead_of_lt {s : State} {a : ProgAddr} (h : a.toNat < s.program.length) :
    progRead s a = .ok s.program[a.toNat] :=
  (progRead_ok_iff _ _ _).mpr (List.getElem?_eq_getElem h)

theorem progRead_of_ge {s : State} {a : ProgAddr} (h : s.program.length ≤ a.toNat) :
    progRead s a = .error .fetchOutsideProgram := by
  rw [progRead, List.getElem?_eq_none h]

theorem instrStep_of_outside {s : State} (h : s.program.length ≤ s.pc.toNat) :
    instrStep s = .fault .fetchOutsideProgram := by
  rw [instrStep, progRead_of_ge h]

/-- Settles O17. -/
theorem fetchOutsideProgramFaults : Obligations.FetchOutsideProgramFaults := by
  refine ⟨fun s a h => progRead_of_lt h, fun s a h => progRead_of_ge h, fun s hruns hpc => ?_⟩
  rw [step_of_runsInstruction hruns, instrStep_of_outside (s := (takeInput s).clearMustExecute) hpc, landFlags_fault]

/-- Settles O57: program memory and the device are in the frame of every event of a step and of every instruction. -/
theorem noStepWritesProgramMemory : Obligations.NoStepWritesProgramMemory := by
  intro s t h
  obtain ⟨k, -, rfl⟩ | ⟨u, rfl, hu⟩ := step_next_cases s t h
  · cases k <;> exact ⟨rfl, rfl⟩
  · obtain ⟨-, rfl⟩ | ⟨-, rfl⟩ | ⟨-, -, hentry⟩ | ⟨-, hinstr⟩ := hu
    · exact ⟨rfl, rfl⟩
    · exact ⟨rfl, rfl⟩
    · obtain ⟨-, rfl⟩ := (interruptEntry_ok_iff _ _).mp hentry
      exact ⟨rfl, rfl⟩
    · obtain ⟨word, i, -, -, hexec⟩ := instrStep_next _ _ hinstr
      obtain ⟨-, -, -, hprogram, hdev, -⟩ := registersChangeOnlyAsDestination i _ _ hexec
      exact ⟨hprogram, hdev⟩

/-! ### PCL -/

theorem decode_encode_movf_w (f : FileField) : decode (encode (.movf f .w)) = .ok (.movf f .w) := by
  revert f; decide

theorem decode_encode_movwf (f : FileField) : decode (encode (.movwf f)) = .ok (.movwf f) := by
  revert f; decide

/-- The cut to `PC_BITS` does not reach the low byte. -/
theorem nextPc_lowByte (d : Device) (a : ProgAddr) : (nextPc d a).toNat % 256 = (a.toNat + 1) % 256 := by
  have hdvd : 256 ∣ 2 ^ d.pcWidth.bits := by cases d.pcWidth <;> decide
  rw [nextPc_toNat, Nat.mod_mod_of_dvd _ hdvd]

/-- The operand is accessible to the instruction of the step as it is before the step. -/
theorem accessFault_fetched {s : State} {f : FileField} (h : OperandOk s f) :
    accessFault (fetched s) (operandAddr (fetched s) f) = none :=
  (accessFault_none_iff _ _).mpr h

/-- Settles O47: the read sees the PC already advanced, and the write loads the PC in a second cycle. -/
theorem pclReadsAndWrites : Obligations.PclReadsAndWrites := by
  intro s f hruns hok hcell
  have haccess := accessFault_fetched hok
  have hcell : fileCell (fetched s).dev (operandAddr (fetched s) f) = .pcl := hcell
  refine ⟨fun hword => ?_, fun hword => ?_⟩
  · have hread : (operandValue (fetched s) f).toNat = (s.pc.toNat + 1) % 256 := by
      rw [operandValue, peek_eq_contents hcell rfl]
      exact (lowByte_toNat _).trans (nextPc_lowByte s.dev s.pc)
    rw [step_of_fetched hruns hword (decode_encode_movf_w f),
      show exec (.movf f .w) (fetched s) = _ from byteOp_of_ok _ f .w zeroOut haccess]
    exact ⟨_, rfl, hread, rfl⟩
  · rw [step_of_fetched hruns hword (decode_encode_movwf f),
      show exec (.movwf f) (fetched s) = _ from storeOp_of_ok _ f (plainOut _) haccess]
    refine ⟨_, rfl, ?_, ?_⟩
    · rw [landMidFlags_pc, State.pc_setFlags, poke_pc, if_pos hcell]
      exact pclTarget_toNat _ _
    · rw [landMidFlags_cycles, State.cycles_setFlags, poke_cycles, if_pos hcell]
      rfl

end Sys2Proof.Machine
end

section
/-! The encoder's words by format (30_encoding.md R81 to R91), and what the decoder reads from them. -/

namespace Sys2Proof

/-! ### The parts of a word put together from its fields

Each format is an opcode in front of its operand fields; the decoder's tests look at parts of the opcode alone. -/

section Formats
variable (d : Dest) (f : FileField) (b : BitField) (k : Byte) (target : BitVec 11)

theorem family_byteWord (op : BitVec 6) : (op ++ d.bit ++ f : InstrWord).extractLsb' 12 2 = op.extractLsb' 4 2 := by
  rw [BitVec.extractLsb'_append_eq_of_le (by decide), BitVec.extractLsb'_append_eq_of_le (by decide)]

theorem opcode_byteWord (op : BitVec 6) : (op ++ d.bit ++ f : InstrWord).extractLsb' 8 4 = op.extractLsb' 0 4 := by
  rw [BitVec.extractLsb'_append_eq_of_le (by decide), BitVec.extractLsb'_append_eq_of_le (by decide)]

theorem fieldD_byteWord (op : BitVec 6) : fieldD (op ++ d.bit ++ f) = d := by
  have hbit : (op ++ d.bit ++ f : InstrWord).getLsbD 7 = d.bit.getLsbD 0 := by
    rw [BitVec.getLsbD_append, if_neg (by decide), BitVec.getLsbD_append, if_pos (by decide)]
  rw [fieldD, hbit]
  cases d <;> rfl

theorem fieldF_byteWord (op : BitVec 6) : fieldF (op ++ d.bit ++ f) = f := BitVec.extractLsb'_append_eq_right

theorem family_fileWord (op : BitVec 7) : (op ++ f : InstrWord).extractLsb' 12 2 = op.extractLsb' 5 2 :=
  BitVec.extractLsb'_append_eq_of_le (by decide)

theorem opcode_fileWord (op : BitVec 7) : (op ++ f : InstrWord).extractLsb' 8 4 = op.extractLsb' 1 4 :=
  BitVec.extractLsb'_append_eq_of_le (by decide)

theorem bit7_fileWord (op : BitVec 7) : (op ++ f : InstrWord).getLsbD 7 = op.getLsbD 0 := by
  rw [BitVec.getLsbD_append, if_neg (by decide)]

theorem fieldF_fileWord (op : BitVec 7) : fieldF (op ++ f) = f := BitVec.extractLsb'_append_eq_right

theorem family_bitWord (op : BitVec 4) : (op ++ b ++ f : InstrWord).extractLsb' 12 2 = op.extractLsb' 2 2 := by
  rw [BitVec.extractLsb'_append_eq_of_le (by decide), BitVec.extractLsb'_append_eq_of_le (by decide)]

theorem opcode_bitWord (op : BitVec 4) : (op ++ b ++ f : InstrWord).extractLsb' 10 2 = op.extractLsb' 0 2 := by
  rw [BitVec.extractLsb'_append_eq_of_le (by decide), BitVec.extractLsb'_append_eq_of_le (by decide)]

theorem fieldB_bitWord (op : BitVec 4) : fieldB (op ++ b ++ f) = b := by
  rw [fieldB, BitVec.extractLsb'_append_eq_of_le (by decide)]
  exact BitVec.extractLsb'_append_eq_right

theorem fieldF_bitWord (op : BitVec 4) : fieldF (op ++ b ++ f) = f := BitVec.extractLsb'_append_eq_right

theorem high_literalWord (op : BitVec 6) (start len : Nat) (h : 8 ≤ start) :
    (op ++ k : InstrWord).extractLsb' start len = op.extractLsb' (start - 8) len :=
  BitVec.extractLsb'_append_eq_of_le h

theorem bit9_literalWord (op : BitVec 6) : (op ++ k : InstrWord).getLsbD 9 = op.getLsbD 1 := by
  rw [BitVec.getLsbD_append, if_neg (by decide)]

theorem fieldK8_literalWord (op : BitVec 6) : fieldK8 (op ++ k) = k := BitVec.extractLsb'_append_eq_right

theorem family_jumpWord (op : BitVec 3) : (op ++ target : InstrWord).extractLsb' 12 2 = op.extractLsb' 1 2 :=
  BitVec.extractLsb'_append_eq_of_le (by decide)

theorem bit11_jumpWord (op : BitVec 3) : (op ++ target : InstrWord).getLsbD 11 = op.getLsbD 0 := by
  rw [BitVec.getLsbD_append, if_neg (by decide)]

theorem fieldK11_jumpWord (op : BitVec 3) : fieldK11 (op ++ target) = target := BitVec.extractLsb'_append_eq_right

end Formats

/-! ### Decoding a canonical word -/

/-- The decoder undoes the encoder, format by format. -/
theorem decode_encode (i : Instr) : decode (encode i) = .ok i := by
  cases i with
  | nop | clrw | ret | retfie | sleep | clrwdt => rfl
  | clrf f | movwf f =>
    simp only [encode, decode, family_fileWord, decodeByteOriented, opcode_fileWord, bit7_fileWord, fieldF_fileWord]
    rfl
  | bcf f b | bsf f b | btfsc f b | btfss f b =>
    simp only [encode, decode, family_bitWord, decodeBitOriented, opcode_bitWord, fieldB_bitWord, fieldF_bitWord]
    rfl
  | addlw k | andlw k | iorlw k | movlw k | retlw k | sublw k | xorlw k =>
    simp only [encode, decode, high_literalWord, decodeLiteral, bit9_literalWord, fieldK8_literalWord, Nat.reduceLeDiff]
    rfl
  | call k | goto k =>
    simp only [encode, decode, family_jumpWord, bit11_jumpWord, fieldK11_jumpWord]
    rfl
  | _ f d =>
    simp only [encode, decode, family_byteWord, decodeByteOriented, opcode_byteWord, fieldD_byteWord, fieldF_byteWord]
    rfl

theorem encode_injective {i j : Instr} (h : encode i = encode j) : i = j := by
  have hij : Except.ok i = (Except.ok j : Except DecodeReject Instr) := by rw [← decode_encode i, h, decode_encode j]
  exact Except.ok.inj hij

/-- Settles O1: a word has fewer than 15 bits, so the table decoder is the decoder on it. -/
theorem decodeOfEncodeIsIdentity : Obligations.DecodeOfEncodeIsIdentity := by
  refine fun i => ⟨decode_encode i, ?_⟩
  rw [decodeTableWord, if_pos (encode i).isLt, BitVec.ofNat_toNat, BitVec.setWidth_eq, decode_encode]
  rfl

end Sys2Proof
end

section
/-! What the decoder answers (30_encoding.md R92 to R95): an instruction whose canonical word is the decoded word without
its don't-care bits, or the rejection of an undefined word. -/

namespace Sys2Proof

/-! ### A word is its opcode in front of its fields -/

theorem extractLsb'_toNat_eq_div_mod (w : InstrWord) (start len : Nat) :
    (w.extractLsb' start len).toNat = w.toNat / 2 ^ start % 2 ^ len := by
  rw [BitVec.extractLsb'_toNat, Nat.shiftRight_eq_div_pow]

theorem getLsbD_iff_div_mod (w : InstrWord) (i : Nat) : w.getLsbD i = true ↔ w.toNat / 2 ^ i % 2 = 1 := by
  rw [BitVec.getLsbD, Nat.testBit_eq_decide_div_mod_eq, decide_eq_true_iff]

theorem extractLsb'_eq_of_div {w : InstrWord} {start len : Nat} {op : BitVec len} (h : w.toNat / 2 ^ start = op.toNat) :
    w.extractLsb' start len = op := by
  apply BitVec.eq_of_toNat_eq
  rw [extractLsb'_toNat_eq_div_mod, h, Nat.mod_eq_of_lt op.isLt]

theorem bit_fieldD (w : InstrWord) : (fieldD w).bit = w.extractLsb' 7 1 := by
  apply BitVec.eq_of_toNat_eq
  simp only [extractLsb'_toNat_eq_div_mod, Nat.pow_one, fieldD, getLsbD_iff_div_mod]
  obtain h | h := Nat.mod_two_eq_zero_or_one (w.toNat / 2 ^ 7) <;> rw [h] <;> rfl

/-- Two neighbouring parts that reach down to bit 0 are the whole word. -/
theorem extractLsb'_append_eq_self {w : InstrWord} {n m : Nat} (h : n + m = 14) :
    w.extractLsb' m n ++ w.extractLsb' 0 m = w.cast h.symm := by
  rw [BitVec.extractLsb'_append_extractLsb'_eq_extractLsb' (Nat.zero_add m).symm]
  apply BitVec.eq_of_toNat_eq
  simpa [h] using w.isLt

theorem fileWord_eq {w : InstrWord} {op : BitVec 7} (h : w.toNat / 2 ^ 7 = op.toNat) : op ++ fieldF w = w := by
  rw [← extractLsb'_eq_of_div h, fieldF]
  exact extractLsb'_append_eq_self (n := 7) rfl

theorem byteWord_eq {w : InstrWord} {op : BitVec 6} (h : w.toNat / 2 ^ 8 = op.toNat) :
    op ++ (fieldD w).bit ++ fieldF w = w := by
  rw [← extractLsb'_eq_of_div h, bit_fieldD, fieldF,
    BitVec.extractLsb'_append_extractLsb'_eq_extractLsb' (start₁ := 7) (len₁ := 1) rfl]
  exact extractLsb'_append_eq_self (n := 7) rfl

theorem bitWord_eq {w : InstrWord} {op : BitVec 4} (h : w.toNat / 2 ^ 10 = op.toNat) :
    op ++ fieldB w ++ fieldF w = w := by
  rw [← extractLsb'_eq_of_div h, fieldB, fieldF,
    BitVec.extractLsb'_append_extractLsb'_eq_extractLsb' (start₁ := 7) (len₁ := 3) rfl]
  exact extractLsb'_append_eq_self (n := 7) rfl

theorem jumpWord_eq {w : InstrWord} {op : BitVec 3} (h : w.toNat / 2 ^ 11 = op.toNat) : op ++ fieldK11 w = w := by
  rw [← extractLsb'_eq_of_div h, fieldK11]
  exact extractLsb'_append_eq_self (n := 3) rfl

theorem literalWord_eq {w : InstrWord} {op : BitVec 6} (h : w.toNat / 2 ^ 8 = op.toNat) : op ++ fieldK8 w = w := by
  rw [← extractLsb'_eq_of_div h, fieldK8]
  exact extractLsb'_append_eq_self (n := 6) rfl

/-! ### The answer of the decoder, by the formats it tells apart -/

/-- The undefined words: 0000h to 007Fh but for the eight operand-less ones, and 3B00h to 3BFFh (30_encoding.md R95). -/
def IsUndefinedWord (w : InstrWord) : Prop :=
  (w.toNat < 0x80 ∧ w.toNat ∉ [0x00, 0x08, 0x09, 0x20, 0x40, 0x60, 0x63, 0x64]) ∨ (0x3B00 ≤ w.toNat ∧ w.toNat ≤ 0x3BFF)

/-- What a decoder may answer for a word: an instruction that is encoded by the word with its don't-care bits cleared
(30_encoding.md R92), or the rejection of this word, when it is undefined (R95). -/
def AnswersFor (w : InstrWord) : Except DecodeReject Instr → Prop
  | .ok i => encode i = w &&& ~~~i.dontCareMask
  | .error e => e = .undefinedWord w ∧ IsUndefinedWord w

/-- Where the encoding has no don't-care bit, the word is the canonical one. -/
theorem answersFor_of_encode_eq {w : InstrWord} {i : Instr} (hmask : i.dontCareMask = 0#14) (h : encode i = w) :
    AnswersFor w (.ok i) := by
  have hall : ~~~0#14 = BitVec.allOnes 14 := rfl
  rw [AnswersFor, hmask, hall, BitVec.and_allOnes, h]

/-- The don't-care bits `x` of the literal format lie in the opcode. -/
theorem answersFor_of_literal {w : InstrWord} {i : Instr} {op : BitVec 6} (x : BitVec 6)
    (hmask : i.dontCareMask = x ++ 0#8) (henc : encode i = op ++ fieldK8 w) (hop : w.extractLsb' 8 6 &&& ~~~x = op) :
    AnswersFor w (.ok i) := by
  have hw : w.extractLsb' 8 6 ++ fieldK8 w = w := literalWord_eq (by rw [extractLsb'_toNat_eq_div_mod]; omega)
  have hclear : w &&& ~~~(x ++ 0#8) = op ++ fieldK8 w := by
    conv_lhs => rw [← hw]
    rw [BitVec.not_append, BitVec.and_append, hop, BitVec.not_zero, BitVec.and_allOnes]
  rw [AnswersFor, hmask, henc]
  exact hclear.symm

/-- The don't-care bits of an operand-less format lie in the low 7 bits. -/
theorem clear_nopWord : ∀ f : FileField, f.toNat % 2 ^ 5 = 0 → 0#14 = (0#7 ++ f) &&& ~~~0x0060#14 := by decide

theorem clear_clrwWord : ∀ f : FileField, 0x0100#14 = (2#7 ++ f) &&& ~~~0x007F#14 := by decide

/-! The opcodes of the literal format that have don't-care bits, with these cleared. -/

theorem clear_movlwOpcode : ∀ op : BitVec 6, op.toNat / 2 ^ 2 = 12 → op &&& ~~~3#6 = 0b110000#6 := by decide

theorem clear_retlwOpcode : ∀ op : BitVec 6, op.toNat / 2 ^ 2 = 13 → op &&& ~~~3#6 = 0b110100#6 := by decide

theorem clear_addlwOpcode : ∀ op : BitVec 6, op.toNat / 2 = 31 → op &&& ~~~1#6 = 0b111110#6 := by decide

theorem clear_sublwOpcode : ∀ op : BitVec 6, op.toNat / 2 = 30 → op &&& ~~~1#6 = 0b111100#6 := by decide

theorem decodeOperandless_answers {w : InstrWord} (h : w.toNat / 2 ^ 7 = 0) : AnswersFor w (decodeOperandless w) := by
  have hlow : (w.extractLsb' 0 7).toNat = w.toNat := by
    rw [extractLsb'_toNat_eq_div_mod]
    omega
  rw [decodeOperandless, hlow, extractLsb'_toNat_eq_div_mod, Nat.pow_zero, Nat.div_one]
  split
  case isTrue hnop => -- NOP
    have hf : (fieldF w).toNat % 2 ^ 5 = 0 := by rwa [fieldF, hlow]
    have hclear := clear_nopWord (fieldF w) hf
    rwa [fileWord_eq h] at hclear
  case isFalse hnop =>
    split
    case h_5 => -- no operand-less word
      simp only [imp_false] at *
      refine ⟨rfl, .inl ⟨by omega, ?_⟩⟩
      simp only [List.mem_cons, List.not_mem_nil, or_false]
      omega
    all_goals
      next hw => exact answersFor_of_encode_eq rfl (BitVec.eq_of_toNat_eq hw.symm)

theorem decodeByteOriented_answers {w : InstrWord} (h : w.toNat / 2 ^ 12 = 0) :
    AnswersFor w (decodeByteOriented w) := by
  have hop : (w.extractLsb' 8 4).toNat = w.toNat / 2 ^ 8 := by
    rw [extractLsb'_toNat_eq_div_mod]
    omega
  rw [decodeByteOriented, hop]
  split
  case h_1 hop => -- MOVWF and the operand-less words
    split
    case isTrue hbit =>
      rw [getLsbD_iff_div_mod] at hbit
      exact answersFor_of_encode_eq rfl (fileWord_eq (by bv_omega))
    case isFalse hbit =>
      rw [getLsbD_iff_div_mod] at hbit
      exact decodeOperandless_answers (by bv_omega)
  case h_2 hop => -- CLRF and CLRW
    split
    case isTrue hbit =>
      rw [getLsbD_iff_div_mod] at hbit
      exact answersFor_of_encode_eq rfl (fileWord_eq (by bv_omega))
    case isFalse hbit =>
      rw [getLsbD_iff_div_mod] at hbit
      have hclear := clear_clrwWord (fieldF w)
      rwa [fileWord_eq (by bv_omega)] at hclear
  case h_16 => -- INCFSZ, the decoder's default
    simp only [imp_false] at *
    exact answersFor_of_encode_eq rfl (byteWord_eq (by bv_omega))
  all_goals
    next hop => exact answersFor_of_encode_eq rfl (byteWord_eq hop)

theorem decodeBitOriented_answers {w : InstrWord} (h : w.toNat / 2 ^ 12 = 1) : AnswersFor w (decodeBitOriented w) := by
  rw [decodeBitOriented, extractLsb'_toNat_eq_div_mod]
  split
  case h_4 => -- BTFSS, the decoder's default
    simp only [imp_false] at *
    exact answersFor_of_encode_eq rfl (bitWord_eq (by bv_omega))
  all_goals
    exact answersFor_of_encode_eq rfl (bitWord_eq (by bv_omega))

theorem decodeLiteral_answers {w : InstrWord} (h : w.toNat / 2 ^ 12 = 3) : AnswersFor w (decodeLiteral w) := by
  have hhigh : (w.extractLsb' 8 6).toNat = w.toNat / 2 ^ 8 := by
    rw [extractLsb'_toNat_eq_div_mod]
    omega
  rw [decodeLiteral, extractLsb'_toNat_eq_div_mod, extractLsb'_toNat_eq_div_mod]
  split
  case h_1 => -- MOVLW
    exact answersFor_of_literal 3#6 rfl rfl (clear_movlwOpcode _ (by omega))
  case h_2 => -- RETLW
    exact answersFor_of_literal 3#6 rfl rfl (clear_retlwOpcode _ (by omega))
  case h_3 => -- IORLW, ANDLW, XORLW and the undefined words 3B00h to 3BFFh
    split
    case h_4 =>
      simp only [imp_false] at *
      exact ⟨rfl, .inr (by omega)⟩
    all_goals
      exact answersFor_of_encode_eq rfl (literalWord_eq (by bv_omega))
  case h_4 => -- ADDLW and SUBLW
    simp only [imp_false] at *
    split
    case isTrue hbit =>
      rw [getLsbD_iff_div_mod] at hbit
      exact answersFor_of_literal 1#6 rfl rfl (clear_addlwOpcode _ (by omega))
    case isFalse hbit =>
      rw [getLsbD_iff_div_mod] at hbit
      exact answersFor_of_literal 1#6 rfl rfl (clear_sublwOpcode _ (by omega))

theorem decode_answers (w : InstrWord) : AnswersFor w (decode w) := by
  have hfamily : (w.extractLsb' 12 2).toNat = w.toNat / 2 ^ 12 := by
    rw [extractLsb'_toNat_eq_div_mod]
    omega
  rw [decode, hfamily]
  split
  case h_1 h => exact decodeByteOriented_answers h
  case h_2 h => exact decodeBitOriented_answers h
  case h_3 h =>
    split
    all_goals
      next hbit =>
        rw [getLsbD_iff_div_mod] at hbit
        exact answersFor_of_encode_eq rfl (jumpWord_eq (by bv_omega))
  case h_4 =>
    simp only [imp_false] at *
    exact decodeLiteral_answers (by omega)

end Sys2Proof
end

section
/-! The opcode map (30_encoding.md R93) against the encoder and the decoder: its rows exclude each other, an instruction's
row admits every word of the instruction, and no row admits an undefined word. -/

namespace Sys2Proof

theorem encode_of_decode {w : InstrWord} {i : Instr} (h : decode w = .ok i) : encode i = w &&& ~~~i.dontCareMask := by
  have hanswer := decode_answers w
  rw [h] at hanswer
  exact hanswer

theorem undefined_of_decode_error {w : InstrWord} {e : DecodeReject} (h : decode w = .error e) :
    e = .undefinedWord w ∧ IsUndefinedWord w := by
  have hanswer := decode_answers w
  rw [h] at hanswer
  exact hanswer

/-! ### The rows -/

/-- Row `k` of the opcode map admits the word. -/
def rowAdmits (k : Nat) (w : InstrWord) : Bool := (opcodeRows[k]?).any (fun r => r.admits w)

theorem rowAdmits_iff (k : Nat) (w : InstrWord) :
    rowAdmits k w = true ↔ ∃ r, opcodeRows[k]? = some r ∧ w &&& r.mask = r.pattern := by
  simp [rowAdmits, OpcodeRow.admits, Option.any_eq_true]

theorem wordDefined_iff (w : InstrWord) : wordDefined w = true ↔ ∃ k, rowAdmits k w = true := by
  simp only [wordDefined, List.any_eq_true, List.mem_iff_getElem?, rowAdmits, Option.any_eq_true]
  tauto

/-- Any two rows ask different values of some bit that both fix. -/
theorem opcodeRows_clash : opcodeRows.Pairwise (fun r r' => r.pattern &&& r'.mask ≠ r'.pattern &&& r.mask) := by decide

theorem not_both_of_clash {r r' : OpcodeRow} (hclash : r.pattern &&& r'.mask ≠ r'.pattern &&& r.mask) {w : InstrWord}
    (h : w &&& r.mask = r.pattern) (h' : w &&& r'.mask = r'.pattern) : False := by
  rw [← h, ← h', BitVec.and_assoc, BitVec.and_assoc, BitVec.and_comm r.mask] at hclash
  exact hclash rfl

theorem rowAdmits_unique {j k : Nat} {w : InstrWord} (hj : rowAdmits j w = true) (hk : rowAdmits k w = true) : j = k := by
  obtain ⟨r, hr, hrw⟩ := (rowAdmits_iff j w).mp hj
  obtain ⟨r', hr', hrw'⟩ := (rowAdmits_iff k w).mp hk
  obtain ⟨hjlt, rfl⟩ := List.getElem?_eq_some_iff.mp hr
  obtain ⟨hklt, rfl⟩ := List.getElem?_eq_some_iff.mp hr'
  have hclash := List.pairwise_iff_getElem.mp opcodeRows_clash
  obtain hlt | rfl | hgt := Nat.lt_trichotomy j k
  · exact (not_both_of_clash (hclash j k hjlt hklt hlt) hrw hrw').elim
  · rfl
  · exact (not_both_of_clash (hclash k j hklt hjlt hgt) hrw' hrw).elim

/-! ### An instruction's row -/

/-- The family of Laws/PerInstr.lean as one fact. -/
theorem rowAdmits_encode (i : Instr) : rowAdmits i.rowIndex (encode i) = true := by
  open Laws.EncodingRow in
  cases i with
  | addwf f d => exact addwf f d
  | andwf f d => exact andwf f d
  | clrf f => exact clrf f
  | clrw => exact clrw
  | comf f d => exact comf f d
  | decf f d => exact decf f d
  | decfsz f d => exact decfsz f d
  | incf f d => exact incf f d
  | incfsz f d => exact incfsz f d
  | iorwf f d => exact iorwf f d
  | movf f d => exact movf f d
  | movwf f => exact movwf f
  | nop => exact nop
  | rlf f d => exact rlf f d
  | rrf f d => exact rrf f d
  | subwf f d => exact subwf f d
  | swapf f d => exact swapf f d
  | xorwf f d => exact xorwf f d
  | bcf f b => exact bcf f b
  | bsf f b => exact bsf f b
  | btfsc f b => exact btfsc f b
  | btfss f b => exact btfss f b
  | addlw k => exact addlw k
  | andlw k => exact andlw k
  | call k => exact call k
  | clrwdt => exact clrwdt
  | goto k => exact goto k
  | iorlw k => exact iorlw k
  | movlw k => exact movlw k
  | retfie => exact retfie
  | retlw k => exact retlw k
  | ret => exact ret
  | sleep => exact sleep
  | sublw k => exact sublw k
  | xorlw k => exact xorlw k

/-- The don't-care bits, by the row alone. -/
def rowDontCareMask : Nat → InstrWord
  | 3 => 0x007F#14
  | 12 => 0x0060#14
  | 22 => 0x0100#14
  | 28 => 0x0300#14
  | 30 => 0x0300#14
  | 33 => 0x0100#14
  | _ => 0x0000#14

theorem dontCareMask_eq (i : Instr) : i.dontCareMask = rowDontCareMask i.rowIndex := by cases i <;> rfl

/-- No row fixes a don't-care bit. -/
theorem rowMask_cares :
    ∀ k < opcodeRows.length, ∀ r ∈ opcodeRows[k]?, ~~~rowDontCareMask k &&& r.mask = r.mask := by decide

/-- A row admits every word of its instruction, whatever the don't-care bits. -/
theorem rowAdmits_of_canonical {w : InstrWord} {i : Instr} (h : encode i = w &&& ~~~i.dontCareMask) :
    rowAdmits i.rowIndex w = true := by
  obtain ⟨r, hr, hpattern⟩ := (rowAdmits_iff _ _).mp (rowAdmits_encode i)
  have hcares := rowMask_cares _ (List.getElem?_eq_some_iff.mp hr).1 r hr
  rw [← dontCareMask_eq] at hcares
  rw [h, BitVec.and_assoc, hcares] at hpattern
  exact (rowAdmits_iff _ _).mpr ⟨r, hr, hpattern⟩

theorem rowAdmits_of_decode {w : InstrWord} {i : Instr} (h : decode w = .ok i) : rowAdmits i.rowIndex w = true :=
  rowAdmits_of_canonical (encode_of_decode h)

/-! ### The undefined words -/

theorem not_wordDefined_of_low : ∀ n < 0x80, n ∉ [0x00, 0x08, 0x09, 0x20, 0x40, 0x60, 0x63, 0x64] →
    wordDefined (BitVec.ofNat 14 n) = false := by decide +kernel

/-- The words 3B00h to 3BFFh as a row, which Table 5-1 does not have. -/
def missingRow : OpcodeRow := ⟨"", 0x3B00, 0x3F00⟩

theorem missingRow_clash : ∀ r ∈ opcodeRows, r.pattern &&& missingRow.mask ≠ missingRow.pattern &&& r.mask := by decide

theorem and_mask_of_3Bxx {w : InstrWord} (h : w.toNat / 2 ^ 8 = 0x3B) : w &&& missingRow.mask = missingRow.pattern := by
  have hw : 0x3B#6 ++ fieldK8 w = w := literalWord_eq h
  have hmask : (0x3B#6 ++ fieldK8 w) &&& (0x3F#6 ++ 0#8) = 0x3B#6 ++ 0#8 := by
    rw [BitVec.and_append, BitVec.and_zero]
    rfl
  rw [← hw]
  exact hmask

theorem not_wordDefined_of_3Bxx {w : InstrWord} (h : w.toNat / 2 ^ 8 = 0x3B) : wordDefined w = false := by
  refine Bool.eq_false_iff.mpr fun hdef => ?_
  obtain ⟨k, hk⟩ := (wordDefined_iff w).mp hdef
  obtain ⟨r, hr, hrw⟩ := (rowAdmits_iff k w).mp hk
  exact not_both_of_clash (missingRow_clash r (List.mem_of_getElem? hr)) hrw (and_mask_of_3Bxx h)

theorem not_wordDefined_of_undefined {w : InstrWord} (h : IsUndefinedWord w) : wordDefined w = false := by
  obtain ⟨hlt, hmem⟩ | ⟨hge, hle⟩ := h
  · have hlow := not_wordDefined_of_low w.toNat hlt hmem
    rwa [BitVec.ofNat_toNat, BitVec.setWidth_eq] at hlow
  · exact not_wordDefined_of_3Bxx (by omega)

/-- A decoded word is admitted by the row of its instruction, so it is defined. -/
theorem wordDefined_of_decode {w : InstrWord} {i : Instr} (h : decode w = .ok i) : wordDefined w = true :=
  (wordDefined_iff w).mpr ⟨_, rowAdmits_of_decode h⟩

theorem isUndefinedWord_iff_wordDefined (w : InstrWord) : IsUndefinedWord w ↔ wordDefined w = false := by
  refine ⟨not_wordDefined_of_undefined, fun h => ?_⟩
  cases hd : decode w with
  | error e => exact (undefined_of_decode_error hd).2
  | ok i => simp [wordDefined_of_decode hd] at h

theorem isUndefinedWord_iff_decode (w : InstrWord) : IsUndefinedWord w ↔ decode w = .error (.undefinedWord w) := by
  refine ⟨fun h => ?_, fun h => (undefined_of_decode_error h).2⟩
  have hundef := not_wordDefined_of_undefined h
  cases hd : decode w with
  | error e => rw [(undefined_of_decode_error hd).1]
  | ok i => simp [wordDefined_of_decode hd] at hundef

theorem exists_decode_of_rowAdmits {k : Nat} {w : InstrWord} (h : rowAdmits k w = true) :
    ∃ i, decode w = .ok i ∧ i.rowIndex = k := by
  cases hd : decode w with
  | error e =>
    have hundef := not_wordDefined_of_undefined (undefined_of_decode_error hd).2
    simp [(wordDefined_iff w).mpr ⟨k, h⟩] at hundef
  | ok i => exact ⟨i, rfl, rowAdmits_unique (rowAdmits_of_decode hd) h⟩

/-! ### Counting the undefined words -/

/-- The numbers of the undefined words: 120 below 80h, and a block of 256. -/
def undefinedNumbers : Finset Nat :=
  (Finset.range 0x80 \ {0x00, 0x08, 0x09, 0x20, 0x40, 0x60, 0x63, 0x64}) ∪ Finset.Icc 0x3B00 0x3BFF

theorem undefinedNumbers_card : undefinedNumbers.card = 376 := by
  have hdisjoint : Disjoint (Finset.range 0x80 \ {0x00, 0x08, 0x09, 0x20, 0x40, 0x60, 0x63, 0x64})
      (Finset.Icc 0x3B00 0x3BFF) := by
    refine Finset.disjoint_left.mpr fun n hlow hhigh => ?_
    simp only [Finset.mem_sdiff, Finset.mem_range, Finset.mem_Icc] at hlow hhigh
    omega
  have hlow : (Finset.range 0x80 \ {0x00, 0x08, 0x09, 0x20, 0x40, 0x60, 0x63, 0x64}).card = 120 := by decide
  rw [undefinedNumbers, Finset.card_union_of_disjoint hdisjoint, hlow, Nat.card_Icc]

theorem mem_undefinedNumbers_iff (n : Nat) :
    n ∈ undefinedNumbers ↔ n < 16384 ∧ wordDefined (BitVec.ofNat 14 n) = false := by
  rw [← isUndefinedWord_iff_wordDefined, IsUndefinedWord, BitVec.toNat_ofNat]
  simp only [undefinedNumbers, Finset.mem_union, Finset.mem_sdiff, Finset.mem_range, Finset.mem_Icc, Finset.mem_insert,
    Finset.mem_singleton, List.mem_cons, List.not_mem_nil, or_false]
  omega

theorem undefinedWords_length :
    ((List.range 16384).filter (fun n => !wordDefined (BitVec.ofNat 14 n))).length = 376 := by
  have hset : ((List.range 16384).filter (fun n => !wordDefined (BitVec.ofNat 14 n))).toFinset = undefinedNumbers := by
    ext n
    rw [List.mem_toFinset, List.mem_filter, List.mem_range, mem_undefinedNumbers_iff, Bool.not_eq_true']
  rw [← List.toFinset_card_of_nodup (List.nodup_range.filter _), hset, undefinedNumbers_card]

/-! ### The statements about the decoder -/

/-- Settles O4: a word that a row admits decodes, and to an instruction of that row, because rows exclude each other. -/
theorem decoderFollowsTheOpcodeMap : Obligations.DecoderFollowsTheOpcodeMap := by
  intro w k _
  refine ⟨exists_decode_of_rowAdmits, ?_⟩
  rintro ⟨i, hd, rfl⟩
  exact rowAdmits_of_decode hd

/-- The words of an instruction are those that are its canonical word outside the don't-care bits. -/
theorem decode_eq_ok_iff (w : InstrWord) (i : Instr) : decode w = .ok i ↔ encode i = w &&& ~~~i.dontCareMask := by
  refine ⟨encode_of_decode, fun h => ?_⟩
  obtain ⟨j, hd, hrow⟩ := exists_decode_of_rowAdmits (rowAdmits_of_canonical h)
  have hmask : j.dontCareMask = i.dontCareMask := by rw [dontCareMask_eq, dontCareMask_eq, hrow]
  have henc : encode j = encode i := by rw [encode_of_decode hd, hmask, h]
  rw [hd, encode_injective henc]

/-- Settles O2. -/
theorem dontCareBitsDoNotMatter : Obligations.DontCareBitsDoNotMatter := by
  intro w i hd
  have henc := encode_of_decode hd
  exact ⟨henc, fun w' hw' => (decode_eq_ok_iff w' i).mpr (henc.trans hw'.symm)⟩

/-- Settles O5: all but ADDLW's are canonical words, and ADDLW's is one outside its don't-care bit. -/
theorem wordsOfEachFamilyDecode : Obligations.WordsOfEachFamilyDecode :=
  ⟨decode_encode (.addwf 0x20#7 .f), decode_encode (.subwf 0x20#7 .f), decode_encode (.clrf 0x03#7),
    decode_encode (.btfsc 0x03#7 2#3), decode_encode (.bcf 0x20#7 7#3),
    (decode_eq_ok_iff 0b11111100010101#14 (.addlw 0x15#8)).mpr rfl, decode_encode (.call 0x123#11),
    decode_encode (.goto 0x005#11), decode_encode .clrwdt, decode_encode .retfie⟩

end Sys2Proof

namespace Sys2Proof.Machine

/-! ### The step that fetches an undefined word -/

theorem instrStep_of_undefined {s : State} {word : InstrWord} (hword : s.program[s.pc.toNat]? = some word)
    (h : decode word = .error (.undefinedWord word)) : instrStep s = .refused (.undefinedInstruction word) := by
  simp only [instrStep, (progRead_ok_iff s s.pc word).mpr hword, h]

/-- Settles O3. -/
theorem undefinedWordsAreRefused : Obligations.UndefinedWordsAreRefused := by
  refine ⟨isUndefinedWord_iff_decode, isUndefinedWord_iff_wordDefined, undefinedWords_length, ?_⟩
  intro s w hruns hword hundef
  rw [step_of_runsInstruction hruns,
    instrStep_of_undefined (s := (takeInput s).clearMustExecute) hword ((isUndefinedWord_iff_decode w).mp hundef),
    landFlags_refused]

end Sys2Proof.Machine
end

section
/-! The ALU (40_alu_common.md R103, R104, R107): the sums with their carries, the differences with their reversed borrows,
and the rotates as turns of a ring of nine bits. -/

namespace Sys2Proof.Machine

/-! ### Carries and borrows -/

theorem topBit_eq_decide {n : Nat} (v : BitVec (n + 1)) : v.getLsbD n = decide (2 ^ n ≤ v.toNat) :=
  BitVec.msb_eq_decide v

/-- A sum of two `n`-bit words carries out when it does not fit in `n` bits. -/
theorem carryOut_add {n : Nat} (x y : BitVec n) :
    (x.zeroExtend (n + 1) + y.zeroExtend (n + 1)).getLsbD n = decide (2 ^ n ≤ x.toNat + y.toNat) := by
  have hpow : 2 ^ (n + 1) = 2 * 2 ^ n := Nat.pow_succ'
  have hx := x.isLt
  have hy := y.isLt
  rw [topBit_eq_decide, BitVec.toNat_add, BitVec.toNat_setWidth_of_le n.le_succ, BitVec.toNat_setWidth_of_le n.le_succ,
    Nat.mod_eq_of_lt (by omega)]

/-- `x - y`, as `x + ~y + 1`, carries out when nothing is borrowed. -/
theorem carryOut_sub {n : Nat} (x y : BitVec n) :
    (x.zeroExtend (n + 1) + (~~~y).zeroExtend (n + 1) + 1#(n + 1)).getLsbD n = decide (y.toNat ≤ x.toNat) := by
  have hpow : 2 ^ (n + 1) = 2 * 2 ^ n := Nat.pow_succ'
  have hx := x.isLt
  have hy := y.isLt
  rw [topBit_eq_decide, decide_eq_decide]
  simp only [BitVec.toNat_add, BitVec.toNat_setWidth_of_le n.le_succ, BitVec.toNat_not, BitVec.toNat_ofNat,
    Nat.add_mod_mod, Nat.mod_add_mod]
  rw [Nat.mod_eq_of_lt (by omega)]
  omega

theorem FlagUpdate.eq_of_fields {u v : FlagUpdate} (hc : u.c = v.c) (hdc : u.dc = v.dc) (hz : u.z = v.z) : u = v := by
  cases u
  cases v
  simp_all only

theorem lowNibble_toNat (a : Byte) : (a.extractLsb' 0 4).toNat = a.toNat % 16 := by simp

theorem lowNibble_not (a : Byte) : (~~~a).extractLsb' 0 4 = ~~~(a.extractLsb' 0 4) := by
  ext i hi
  have hlow : i < 8 := by omega
  simp [hlow]

/-! ### Addition -/

theorem add8_result (a b : Byte) : (add8 a b).result = a + b := by
  apply BitVec.eq_of_toNat_eq
  simp [add8]

theorem add8_flags (a b : Byte) : (add8 a b).flags = addFlags a b := by
  have hdc := carryOut_add (a.extractLsb' 0 4) (b.extractLsb' 0 4)
  rw [lowNibble_toNat, lowNibble_toNat] at hdc
  have hz : ((add8 a b).result == 0#8) = decide ((a.toNat + b.toNat) % 256 = 0) := by
    rw [add8_result, beq_eq_decide]
    exact decide_eq_decide.mpr BitVec.toNat_eq
  exact FlagUpdate.eq_of_fields (congrArg some (carryOut_add a b)) (congrArg some hdc) (congrArg some hz)

/-- Settles O18: the two carries are `carryOut_add` at 8 and at 4 bits. -/
theorem additionRule : Obligations.AdditionRule := fun a b =>
  ⟨by rw [add8_result]; exact BitVec.toNat_add a b, add8_flags a b⟩

/-! ### Subtraction -/

theorem sub8_result (a b : Byte) : (sub8 a b).result = a - b := by
  have hsum : (sub8 a b).result.toNat = (a.toNat + (255 - b.toNat) + 1) % 256 := by simp [sub8]
  bv_omega

theorem sub8_flags (a b : Byte) : (sub8 a b).flags = subFlags a b := by
  have hdc := carryOut_sub (a.extractLsb' 0 4) (b.extractLsb' 0 4)
  rw [lowNibble_toNat, lowNibble_toNat, ← lowNibble_not] at hdc
  have hz : ((sub8 a b).result == 0#8) = decide (a = b) := by
    rw [sub8_result, beq_eq_decide]
    exact decide_eq_decide.mpr sub_eq_zero
  exact FlagUpdate.eq_of_fields (congrArg some (carryOut_sub a b)) (congrArg some hdc) (congrArg some hz)

/-- Settles O19: the cases are read off `subFlags` and `a - b`. -/
theorem subtractionRule : Obligations.SubtractionRule := by
  intro a b
  refine ⟨sub8_result a b, sub8_flags a b, fun hlt => ?_, fun heq => ?_, fun hlt => ?_, fun hzero => ?_⟩
  · have hne : a ≠ b := fun heq => by simp [heq] at hlt
    rw [sub8_flags]
    simp [subFlags, hne, hlt.le]
  · have hout : sub8 a b = ⟨(sub8 a b).result, (sub8 a b).flags⟩ := rfl
    rw [hout, sub8_flags, sub8_result, heq]
    simp [subFlags]
  · have hne : a ≠ b := fun heq => by simp [heq] at hlt
    rw [sub8_flags, sub8_result]
    exact ⟨by simp [subFlags, hlt], by simp [subFlags, hne], by bv_omega⟩
  · rw [sub8_flags, hzero]
    simp [subFlags]

/-! ### Rotates -/

theorem rotateLeft_result_toNat (a : Byte) (c : Bool) :
    (rotateLeft a c).result.toNat = (2 * a.toNat + c.toNat) % 256 := by
  have ha := a.isLt
  have hc : c.toNat < 2 ^ 1 := c.toNat_lt
  simp only [rotateLeft, BitVec.toNat_append, BitVec.extractLsb'_toNat, BitVec.toNat_ofBool]
  rw [← Nat.shiftLeft_add_eq_or_of_lt hc, Nat.shiftLeft_eq]
  omega

theorem rotateRight_result_toNat (a : Byte) (c : Bool) :
    (rotateRight a c).result.toNat = a.toNat / 2 + 128 * c.toNat := by
  have ha := a.isLt
  simp only [rotateRight, BitVec.toNat_append, BitVec.extractLsb'_toNat, BitVec.toNat_ofBool, Nat.shiftRight_eq_div_pow]
  rw [← Nat.shiftLeft_add_eq_or_of_lt (Nat.mod_lt _ (Nat.two_pow_pos 7)), Nat.shiftLeft_eq]
  omega

theorem getLsbD_rotateLeft (a : Byte) (c : Bool) {i : Nat} (hi : i < 8) :
    (rotateLeft a c).result.getLsbD i = if i = 0 then c else a.getLsbD (i - 1) := by
  refine (BitVec.getLsbD_append (y := BitVec.ofBool c)).trans ?_
  cases i with
  | zero => simp
  | succ j => simp [(by omega : j < 7)]

theorem getLsbD_rotateRight (a : Byte) (c : Bool) {i : Nat} (hi : i < 8) :
    (rotateRight a c).result.getLsbD i = if i = 7 then c else a.getLsbD (i + 1) := by
  refine (BitVec.getLsbD_append (x := BitVec.ofBool c)).trans ?_
  by_cases h : i = 7
  · simp [h]
  · simp [h, (by omega : i < 7), Nat.add_comm]

/-- A left rotate of a byte and C: C takes the bit moved out. -/
def turnLeft (p : Byte × Bool) : Byte × Bool := ((rotateLeft p.1 p.2).result, p.1.getLsbD 7)

/-- A right rotate of a byte and C. -/
def turnRight (p : Byte × Bool) : Byte × Bool := ((rotateRight p.1 p.2).result, p.1.getLsbD 0)

/-- The nine bits that a rotate turns: the byte's, and C at place 8. -/
def ringBit (p : Byte × Bool) (i : Fin 9) : Bool := if i = 8 then p.2 else p.1.getLsbD i

theorem ringBit_injective : Function.Injective ringBit := by
  intro p q h
  refine Prod.ext (BitVec.eq_of_getLsbD_eq fun i hi => ?_) (congrFun h 8)
  have hbit := congrFun h ⟨i, by omega⟩
  have hne : (⟨i, by omega⟩ : Fin 9) ≠ 8 := Fin.ne_of_val_ne (Nat.ne_of_lt hi)
  simpa only [ringBit, if_neg hne] using hbit

/-- A left rotate moves every bit one place up the ring, C to bit 0. -/
theorem ringBit_turnLeft (p : Byte × Bool) (i : Fin 9) : ringBit (turnLeft p) (i + 1) = ringBit p i := by
  fin_cases i <;> simp [ringBit, turnLeft, getLsbD_rotateLeft, -BitVec.getLsbD_eq_getElem]

/-- A right rotate moves every bit one place down the ring, bit 0 to C. -/
theorem ringBit_turnRight (p : Byte × Bool) (i : Fin 9) : ringBit (turnRight p) i = ringBit p (i + 1) := by
  fin_cases i <;> simp [ringBit, turnRight, getLsbD_rotateRight, -BitVec.getLsbD_eq_getElem]

theorem turnLeft_turnRight : Function.LeftInverse turnLeft turnRight := by
  refine fun p => ringBit_injective (funext fun i => ?_)
  rw [← sub_add_cancel i 1, ringBit_turnLeft, ringBit_turnRight]

theorem turnRight_turnLeft : Function.LeftInverse turnRight turnLeft := by
  refine fun p => ringBit_injective (funext fun i => ?_)
  rw [ringBit_turnRight, ringBit_turnLeft]

theorem ringBit_turnLeft_iterate (n : Nat) (p : Byte × Bool) (i : Fin 9) :
    ringBit (turnLeft^[n] p) (i + n • 1) = ringBit p i := by
  induction n with
  | zero => rw [zero_nsmul, add_zero]; rfl
  | succ n ih => rw [Function.iterate_succ_apply', succ_nsmul, ← add_assoc, ringBit_turnLeft, ih]

/-- Nine places are once around the ring. -/
theorem turnLeft_nine (p : Byte × Bool) : turnLeft^[9] p = p :=
  ringBit_injective (funext fun i => by
    simpa only [show (9 • 1 : Fin 9) = 0 from rfl, add_zero] using ringBit_turnLeft_iterate 9 p i)

theorem turnRight_nine (p : Byte × Bool) : turnRight^[9] p = p :=
  calc turnRight^[9] p = turnRight^[9] (turnLeft^[9] p) := by rw [turnLeft_nine]
    _ = p := turnRight_turnLeft.iterate 9 p

/-- Settles O20: a rotate moves every bit of the ring one place, so nine rotates bring each back. -/
theorem rotatesGoThroughCarry : Obligations.RotatesGoThroughCarry := by
  refine ⟨fun a c => ⟨rotateLeft_result_toNat a c, ?_⟩, fun a c => ⟨rotateRight_result_toNat a c, ?_⟩, fun p =>
    ⟨turnLeft_turnRight p, turnRight_turnLeft p, turnLeft_nine p, turnRight_nine p⟩⟩
  · exact congrArg carryFlag (topBit_eq_decide a)
  · exact congrArg carryFlag (Nat.testBit_zero a.toNat)

end Sys2Proof.Machine
end

section
/-! Completion and the PC: when an instruction answers a next state (40_alu_common.md R100), and where it leaves the PC
(R113). -/

namespace Sys2Proof.Machine

/-! ### When an instruction completes -/

/-- No meaning refuses: each answers a next state or what `finish` makes of its operations. -/
theorem exec_ne_refused (i : Instr) (s : State) (r : Refusal) : exec i s ≠ .refused r := by
  cases i with
  | addwf | andwf | clrf | comf | decf | decfsz | incf | incfsz | iorwf | movf | movwf | rlf | rrf | subwf | swapf | xorwf
  | bcf | bsf | btfsc | btfss | call | retfie | retlw | ret => exact finish_not_refused _ r
  | clrw | nop | addlw | andlw | clrwdt | goto | iorlw | movlw | sleep | sublw | xorlw => exact nofun

/-- An instruction whose register is accessible completes. -/
theorem exec_completes_of_accessible {i : Instr} {s : State} {f : FileField} (hf : fileFieldOf i = some f)
    (h : accessFault s (operandAddr s f) = none) : ∃ t, exec i s = .next t := by
  cases i with
  | addwf g d | andwf g d | comf g d | decf g d | incf g d | iorwf g d | movf g d | rlf g d | rrf g d | subwf g d
  | swapf g d | xorwf g d =>
    cases hf
    exact ⟨_, byteOp_of_ok s f d _ h⟩
  | bcf g b | bsf g b =>
    cases hf
    exact ⟨_, byteOp_of_ok s f .f _ h⟩
  | decfsz g d | incfsz g d =>
    cases hf
    exact ⟨_, byteOpSkip_of_ok s f d _ h⟩
  | clrf g | movwf g =>
    cases hf
    exact ⟨_, storeOp_of_ok s f _ h⟩
  | btfsc g b =>
    cases hf
    exact ⟨_, bitTest_of_ok s f (fun x => !x.getLsbD b.toNat) h⟩
  | btfss g b =>
    cases hf
    exact ⟨_, bitTest_of_ok s f (fun x => x.getLsbD b.toNat) h⟩
  | clrw | nop | addlw | andlw | call | clrwdt | goto | iorlw | movlw | retfie | retlw | ret | sleep | sublw | xorlw =>
    cases hf

theorem exec_completes_iff_operandOk {i : Instr} {s : State} {f : FileField} (hf : fileFieldOf i = some f) :
    (∃ t, exec i s = .next t) ↔ OperandOk s f := by
  rw [OperandOk, ← accessFault_none_iff]
  refine ⟨fun ⟨t, ht⟩ => ?_, exec_completes_of_accessible hf⟩
  cases he : accessFault s (operandAddr s f) with
  | none => rfl
  | some e => exact nomatch (exec_of_accessFault hf he).symm.trans ht

theorem stackOk_of_fileField {i : Instr} {f : FileField} (hf : fileFieldOf i = some f) (s : State) :
    stackOk i s = true := by
  unfold stackOk
  split
  iterate 4 exact nomatch hf
  rfl

/-- A pop is taken by every stack but the empty one. -/
theorem returnToCaller_completes_iff (s : State) : (∃ t, returnToCaller s = .ok t) ↔ (!s.stack.isEmpty) = true := by
  simp only [returnToCaller_ok_iff]
  cases s.stack <;> simp

theorem finish_map_completes_iff (r : Except Fault State) (g : State → State) :
    (∃ t, finish (r.map g) = .next t) ↔ ∃ t, r = .ok t := by
  cases r with
  | ok t => exact iff_of_true ⟨g t, rfl⟩ ⟨t, rfl⟩
  | error e => simp [Except.map]

/-- An instruction that names no register completes when the stack takes its push or pop. -/
theorem exec_completes_iff_stackOk {i : Instr} (hf : fileFieldOf i = none) (s : State) :
    (∃ t, exec i s = .next t) ↔ stackOk i s = true := by
  have hreturn (u : State) : (∃ t, finish (returnToCaller u) = .next t) ↔ (!u.stack.isEmpty) = true :=
    (exists_congr fun t => finish_next_iff _ t).trans (returnToCaller_completes_iff u)
  cases i with
  | clrw | nop | addlw | andlw | clrwdt | goto | iorlw | movlw | sleep | sublw | xorlw =>
    exact iff_of_true ⟨_, rfl⟩ rfl
  | call k =>
    refine (finish_map_completes_iff (push s s.pc) _).trans ?_
    simp [push_ok_iff, stackOk]
  | ret => exact hreturn s
  | retlw k => exact hreturn (s.setW k)
  | retfie => exact (finish_map_completes_iff (returnToCaller s) _).trans (returnToCaller_completes_iff s)
  | addwf | andwf | clrf | comf | decf | decfsz | incf | incfsz | iorwf | movf | movwf | rlf | rrf | subwf | swapf | xorwf
  | bcf | bsf | btfsc | btfss => cases hf

/-- Settles O49: an instruction depends on its register or on the stack, never on both. -/
theorem everyInstructionCompletes : Obligations.EveryInstructionCompletes := by
  refine fun i s => ⟨?_, exec_ne_refused i s⟩
  cases hf : fileFieldOf i with
  | none => simp [exec_completes_iff_stackOk hf, CanComplete, hf]
  | some f => simp [exec_completes_iff_operandOk hf, CanComplete, hf, stackOk_of_fileField hf]

/-! ### The PC -/

theorem pc_destState (s : State) (a : DataAddr) (d : Dest) (out : AluOut) :
    (destState s a d out).pc = if d = .f ∧ fileCell s.dev a = .pcl then pclTarget s out.result else s.pc := by
  cases d with
  | w => rfl
  | f => simp [poke_pc]

/-- The destination write leaves the PC, unless the destination is PCL. -/
theorem pc_destState_of_ne_pcl {i : Instr} {s : State} {f : FileField} {d : Dest}
    (hdest : fileWrittenBy i = if d = .f then some f else none) (h : cellWrittenBy i s ≠ some .pcl) (out : AluOut) :
    (destState s (operandAddr s f) d out).pc = s.pc := by
  rw [pc_destState]
  refine if_neg fun ⟨hd, hcell⟩ => h ?_
  rw [cellWrittenBy_of_dest hdest, if_pos hd, hcell]

theorem dev_destState (s : State) (a : DataAddr) (d : Dest) (out : AluOut) : (destState s a d out).dev = s.dev := by
  cases d with
  | w => rfl
  | f => exact poke_dev ..

/-- What DECFSZ and INCFSZ do once the result is written: the status write, then the skip on a zero result, from a cycle
count before them (70_reset_and_hazards.md R176). -/
def setFlagsAndSkip (u : State) (out : AluOut) (before : Nat) : State :=
  ((u.setFlags out.flags).skipIf (out.result == 0#8)).atMostOneMoreCycle before

/-- Where DECFSZ and INCFSZ leave the PC, when their destination is not PCL. -/
theorem pc_setFlagsAndSkip {i : Instr} {s : State} {f : FileField} {d : Dest}
    (hdest : fileWrittenBy i = if d = .f then some f else none) (h : cellWrittenBy i s ≠ some .pcl) (out : AluOut)
    (before : Nat) :
    (setFlagsAndSkip (destState (afterRead s (operandAddr s f)) (operandAddr s f) d out) out before).pc
      = if out.result == 0#8 then nextPc s.dev s.pc else s.pc := by
  rw [destState_afterRead, setFlagsAndSkip, State.pc_atMostOneMoreCycle, State.pc_skipIf]
  simp only [State.pc_setFlags, State.dev_setFlags, dev_destState, pc_destState_of_ne_pcl hdest h]

/-- DECFSZ and INCFSZ alone, of the instructions that deliver a result elsewhere than to PCL, move the PC on. -/
theorem pc_of_delivered {i : Instr} {s t : State} (h : DeliveredTo i s t) (hc : cellWrittenBy i s ≠ some .pcl) :
    t.pc = s.pc ∨ (∃ f d, i = .decfsz f d ∨ i = .incfsz f d) ∧ t.pc = nextPc s.dev s.pc := by
  obtain ⟨f, d, out, -, -, hdest, -, -, rfl | rfl | ⟨hskip, rfl⟩⟩ := h
  · refine .inl ?_
    rw [destState_afterRead]
    exact pc_destState_of_ne_pcl hdest hc out
  · exact .inl (pc_destState_of_ne_pcl hdest hc out)
  · have hpc := pc_setFlagsAndSkip hdest hc out s.cycles
    split at hpc
    · exact .inr ⟨⟨f, d, hskip⟩, hpc⟩
    · exact .inl hpc

/-- Settles O54, by the shapes of instructions. -/
theorem pcMovesOnlyInTheListedWays : Obligations.PcMovesOnlyInTheListedWays := by
  intro i s t h hmoved
  by_cases hc : cellWrittenBy i s = some .pcl
  · exact .inl hc
  refine .inr ?_
  rcases exec_next_cases i s t h with hd | hb | hl | hr | hc
  · obtain hpc | ⟨⟨f, d, rfl | rfl⟩, hpc⟩ := pc_of_delivered hd hc
    · exact absurd hpc hmoved
    · exact hpc
    · exact hpc
  · obtain ⟨f, b, c, hi, -, rfl⟩ := hb
    cases c with
    | false => exact absurd rfl hmoved
    | true => obtain rfl | rfl := hi <;> rfl
  · obtain ⟨out, -, -, -, -, -, -, rfl⟩ := hl
    exact absurd rfl hmoved
  · obtain ⟨a, rest, hstack, ⟨rfl, rfl⟩ | ⟨k, rfl, rfl⟩ | ⟨rfl, rfl⟩⟩ := hr
    all_goals exact congrArg List.head? hstack
  · obtain ⟨-, rfl⟩ | ⟨k, rfl, -, rfl⟩ | ⟨k, rfl, rfl⟩ | ⟨-, rfl⟩ | ⟨-, rfl⟩ := hc
    · exact absurd rfl hmoved
    · rfl
    · rfl
    iterate 2 exact absurd rfl hmoved

end Sys2Proof.Machine
end

section
/-! The step of an instruction (40_alu_common.md R99), and of one that skips: the word it passes over has no effect (R112). -/

namespace Sys2Proof.Machine

/-! ### The step of a decoded instruction -/

/-- Settles O6: the flags raised inside the step land on the outcome, whichever it is. -/
theorem stepRunsTheDecodedInstruction : Obligations.StepRunsTheDecodedInstruction := by
  intro s word i hruns hword hdecode
  rw [step_of_fetched hruns hword hdecode]
  refine ⟨fun t ht => ?_, fun e he => ?_, fun e he => ?_, nextPc_toNat s.dev s.pc, rfl⟩
  · rw [ht, landFlags_next]
  · rw [he, landFlags_fault]
  · rw [he, landFlags_refused]

/-! ### A skip -/

/-- The destination write does not look at program memory. -/
theorem destState_program (s : State) (p : List InstrWord) (a : DataAddr) (d : Dest) (out : AluOut) :
    destState { s with program := p } a d out = { destState s a d out with program := p } := by
  cases d with
  | w => rfl
  | f =>
    simp only [destState_f, poke]
    split <;> rfl

/-- `i` skips: it completes whatever program memory holds, with the same state but for that, and leaves the PC one further
unless it has loaded PCL. -/
def SkipsOne (i : Instr) (s : State) : Prop :=
  ∃ t : State, (∀ p, exec i { s with program := p } = .next { t with program := p })
    ∧ (cellWrittenBy i s ≠ some .pcl → t.pc = nextPc s.dev s.pc)

theorem skipsOne_of_bitTest {i : Instr} {s : State} {f : FileField} {cond : Byte → Bool}
    (hexec : ∀ u, exec i u = bitTest u f cond) (h : accessFault s (operandAddr s f) = none)
    (hcond : cond (operandValue s f) = true) : SkipsOne i s := by
  refine ⟨(afterRead s (operandAddr s f)).skipIf true, fun p => ?_, fun _ => rfl⟩
  rw [hexec, bitTest_of_ok { s with program := p } f cond h, ← hcond]
  rfl

/-- DECFSZ and INCFSZ of an accessible register, whatever program memory holds. -/
theorem byteOpSkip_program {s : State} {f : FileField} {d : Dest} {op : Byte → AluOut}
    (h : accessFault s (operandAddr s f) = none) (p : List InstrWord) :
    byteOpSkip { s with program := p } f d op = .next
      { setFlagsAndSkip (destState (afterRead s (operandAddr s f)) (operandAddr s f) d (op (operandValue s f)))
          (op (operandValue s f)) s.cycles with program := p } :=
  (byteOpSkip_of_ok { s with program := p } f d op h).trans
    (congrArg (fun u => Host.Outcome.next (setFlagsAndSkip u (op (operandValue s f)) s.cycles))
      (destState_program (afterRead s (operandAddr s f)) p (operandAddr s f) d (op (operandValue s f))))

theorem skipsOne_of_byteOpSkip {i : Instr} {s : State} {f : FileField} {d : Dest} {op : Byte → AluOut}
    (hexec : ∀ u, exec i u = byteOpSkip u f d op) (hdest : fileWrittenBy i = if d = .f then some f else none)
    (h : accessFault s (operandAddr s f) = none) (hzero : (op (operandValue s f)).result = 0#8) : SkipsOne i s := by
  refine ⟨_, fun p => (hexec _).trans (byteOpSkip_program h p), fun hc => ?_⟩
  rw [pc_setFlagsAndSkip hdest hc, hzero]
  rfl

/-- A word placed elsewhere leaves the words that stand in program memory. -/
theorem placeWord_get_of_ne {p : List InstrWord} {a b : Nat} {x w : InstrWord} (hb : p[b]? = some w) (hne : b ≠ a) :
    (placeWord p a x)[b]? = some w := by
  induction p generalizing a b with
  | nil => exact nomatch hb
  | cons y rest ih =>
    cases a with
    | zero =>
      cases b with
      | zero => exact absurd rfl hne
      | succ b => exact hb
    | succ a =>
      cases b with
      | zero => exact hb
      | succ b => exact ih hb (by omega)

theorem nextPc_ne {d : Device} {a : ProgAddr} (h : pcFits d a) : a.toNat ≠ (nextPc d a).toNat := by
  have hbits := pcBits_pow_ge d.pcWidth
  rw [nextPc_toNat]
  obtain hlt | heq : a.toNat + 1 < 2 ^ d.pcWidth.bits ∨ a.toNat + 1 = 2 ^ d.pcWidth.bits := by omega
  · rw [Nat.mod_eq_of_lt hlt]
    omega
  · rw [heq, Nat.mod_self]
    omega

/-- The step of a skip is the same with any word at the skipped address. -/
theorem step_of_skipsOne {s : State} {i : Instr} (x : InstrWord) (hruns : RunsInstruction s) (hpc : pcFits s.dev s.pc)
    (hword : s.program[s.pc.toNat]? = some (encode i)) (h : SkipsOne i (fetched s)) :
    ∃ t, step s = .next t
      ∧ step { s with program := placeWord s.program (nextPc s.dev s.pc).toNat x }
        = .next { t with program := placeWord s.program (nextPc s.dev s.pc).toNat x }
      ∧ (cellWrittenBy i s ≠ some .pcl → t.pc = nextPc s.dev (nextPc s.dev s.pc)) := by
  obtain ⟨u, hexec, hnext⟩ := h
  refine ⟨State.landMidFlags { u with program := s.program }, ?_, ?_, hnext⟩
  · rw [step_of_fetched hruns hword (decode_encode i)]
    exact congrArg landFlags (hexec s.program)
  · have hword' := placeWord_get_of_ne (x := x) hword (nextPc_ne hpc)
    rw [step_of_fetched (s := { s with program := placeWord s.program (nextPc s.dev s.pc).toNat x }) hruns hword'
      (decode_encode i)]
    exact congrArg landFlags (hexec _)

/-- Settles O60: each of the four is `SkipsOne` on the state that the step fetches in. -/
theorem skippedWordHasNoEffect : Obligations.SkippedWordHasNoEffect := by
  intro s i f d b x hruns ⟨hpc, _⟩ hok hskip hword
  have haccess := accessFault_fetched hok
  refine step_of_skipsOne x hruns hpc hword ?_
  obtain ⟨rfl, hbit⟩ | ⟨rfl, hbit⟩ | ⟨rfl, hvalue⟩ | ⟨rfl, hvalue⟩ := hskip
  · exact skipsOne_of_bitTest (cond := fun v => v.getLsbD b.toNat) (fun _ => rfl) haccess hbit
  · exact skipsOne_of_bitTest (cond := fun v => !v.getLsbD b.toNat) (fun _ => rfl) haccess (by rw [hbit]; rfl)
  · exact skipsOne_of_byteOpSkip (op := fun v => plainOut (inc8 v)) (fun _ => rfl) (by cases d <;> rfl) haccess
      (by rw [hvalue]; rfl)
  · exact skipsOne_of_byteOpSkip (op := fun v => plainOut (dec8 v)) (fun _ => rfl) (by cases d <;> rfl) haccess
      (by rw [hvalue]; rfl)

end Sys2Proof.Machine
end

section
/-! The byte-oriented instructions (41_byte_oriented.md R114 to R131): what the destination write and the status write
deliver, with its frame, proved once for each shape of instruction, and each result and its status bits as numbers. -/

namespace Sys2Proof.Machine

/-! ### What the shapes of instructions deliver -/

/-- STATUS after the destination write and the status write. -/
theorem statusAfter_destState (s : State) (a : DataAddr) (d : Dest) (out : AluOut) :
    StatusAfter s ((destState s a d out).setFlags out.flags) (decide (d = .f ∧ fileCell s.dev a = .status)) out.result
      out.flags := by
  cases d with
  | w => exact statusAfter_of_updateFlags _ rfl
  | f =>
    by_cases hcell : fileCell s.dev a = .status
    · rw [decide_eq_true ⟨rfl, hcell⟩]
      exact statusAfter_of_writeStatus (by simp [poke_status, hcell])
    · rw [decide_eq_false fun h => hcell h.2]
      exact statusAfter_of_updateFlags _ (by simp [poke_status, hcell])

/-- The file registers after the destination write. -/
theorem contents_destState {s : State} (hs : s.Bounded) (a : DataAddr) (d : Dest) (out : AluOut) {c : FileCell}
    (hstatus : c ≠ .status) (hpcl : c ≠ .pcl) :
    contents (destState s a d out) c =
      if d = .f ∧ c = fileCell s.dev a then keeps s.dev (fileCell s.dev a) out.result else contents s c := by
  cases d with
  | w => exact contents_setW s _ c
  | f => simp [contents_poke s a out.result _ hs.ram hs.latches c hstatus hpcl]

/-- The destination write and the status write deliver the result. No instruction is named here: the clauses of `Delivers`
are what `destState` does to each part of the state, for W and for every cell. -/
theorem delivers_destState {s : State} (hs : s.Bounded) (a : DataAddr) (d : Dest) (out : AluOut) :
    Delivers s ((destState s a d out).setFlags out.flags) a d out.result out.flags false := by
  refine ⟨?machine, ?w, statusAfter_destState s a d out, fun c hstatus hpcl => ?cells, pc_destState s a d out, ?outputs,
    ?prescaler, ?midFlags, ?cycles⟩
  case cells => exact (contents_setFlags _ _ c hstatus).trans (contents_destState hs a d out hstatus hpcl)
  case outputs =>
    cases d with
    | w => rfl
    | f =>
      rw [State.outputs_setFlags, destState_f, poke_outputs]
      cases fileCell s.dev a <;> rfl
  case machine => cases d <;> simp [SameMachine]
  case w => cases d <;> simp
  case prescaler => cases d <;> simp [poke_prescaler]
  case midFlags => cases d <;> simp [poke_midFlags]
  case cycles => cases d <;> simp [poke_cycles]

/-- The count of draws is no part of what is delivered, so a read before the write does not show in it. -/
theorem Delivers.withDraws {s t : State} {a : DataAddr} {d : Dest} {r : Byte} {u : FlagUpdate} {skips : Bool}
    (h : Delivers s t a d r u skips) (n : Nat) : Delivers s { t with draws := n } a d r u skips := h

/-- A skip moves the PC on from wherever the delivery left it, and costs a second cycle unless a load of PCL already has
(70_reset_and_hazards.md R176). -/
theorem Delivers.skipIf {s t : State} {a : DataAddr} {d : Dest} {r : Byte} {u : FlagUpdate}
    (h : Delivers s t a d r u false) (b : Bool) :
    Delivers s ((t.skipIf b).atMostOneMoreCycle s.cycles) a d r u b := by
  obtain ⟨hmachine, hw, hstatus, hcells, hpc, houtputs, hprescaler, hmid, hcycles⟩ := h
  have ⟨hdev, _⟩ := hmachine
  refine ⟨hmachine, hw, hstatus, fun c hst hpcl => ?_, ?_, houtputs, hprescaler, hmid, ?_⟩
  · exact (contents_congr hst hpcl rfl).trans (hcells c hst hpcl)
  · rw [State.pc_atMostOneMoreCycle, State.pc_skipIf, hdev, hpc]
    rfl
  · rw [State.cycles_atMostOneMoreCycle, State.cycles_skipIf, hcycles]
    cases b with
    | false => simp only [Bool.false_eq_true, false_or, if_false]; split <;> omega
    | true => simp only [true_or, if_true]; omega

section Shapes

variable {i : Instr} {s : State} {f : FileField} {d : Dest} {op : Byte → AluOut} {r : Byte} {u : FlagUpdate}

/-- The read, the destination write and the status write of an operation with the result `r` and the status bits `u`. -/
theorem delivers_afterRead (hs : s.Bounded) (a b : DataAddr) :
    Delivers s ((destState (afterRead s b) a d ⟨r, u⟩).setFlags u) a d r u false := by
  rw [destState_afterRead]
  exact (delivers_destState hs a d ⟨r, u⟩).withDraws _

theorem completesWith_of_byteOp (hexec : exec i s = byteOp s f d op) (hinv : s.Inv) (hok : OperandOk s f)
    (hop : op (operandValue s f) = ⟨r, u⟩) : CompletesWith i s f d r u false := by
  obtain ⟨hs, -⟩ := s.inv_iff.mp hinv
  refine ⟨_, hexec.trans (byteOp_of_ok s f d op ((accessFault_none_iff _ _).mpr hok)), ?_⟩
  rw [hop]
  exact delivers_afterRead hs _ _

theorem completesWith_of_byteOpSkip (hexec : exec i s = byteOpSkip s f d op) (hinv : s.Inv) (hok : OperandOk s f)
    (hop : op (operandValue s f) = ⟨r, u⟩) : CompletesWith i s f d r u (r == 0#8) := by
  obtain ⟨hs, -⟩ := s.inv_iff.mp hinv
  refine ⟨_, hexec.trans (byteOpSkip_of_ok s f d op ((accessFault_none_iff _ _).mpr hok)), ?_⟩
  rw [hop]
  exact (delivers_afterRead hs _ _).skipIf _

theorem completesWith_of_storeOp (hexec : exec i s = storeOp s f ⟨r, u⟩) (hinv : s.Inv) (hok : OperandOk s f) :
    CompletesWith i s f .f r u false := by
  obtain ⟨hs, -⟩ := s.inv_iff.mp hinv
  exact ⟨_, hexec.trans (storeOp_of_ok s f ⟨r, u⟩ ((accessFault_none_iff _ _).mpr hok)),
    delivers_destState hs (operandAddr s f) .f ⟨r, u⟩⟩

theorem literalResult_of_literalOp (hexec : exec i s = literalOp s ⟨r, u⟩) : LiteralResult i s r u :=
  ⟨_, hexec, rfl, statusAfter_of_updateFlags r rfl⟩

end Shapes

/-! ### Results as numbers -/

theorem eq_ofNat_of_toNat_mod {v : Byte} {n : Nat} (h : v.toNat = n % 256) : v = BitVec.ofNat 8 n :=
  BitVec.eq_of_toNat_eq (h.trans (BitVec.toNat_ofNat n 8).symm)

theorem add8_eq (a b : Byte) : add8 a b = ⟨BitVec.ofNat 8 (a.toNat + b.toNat), addFlags a b⟩ :=
  congrArg₂ AluOut.mk ((add8_result a b).trans (eq_ofNat_of_toNat_mod (BitVec.toNat_add a b))) (add8_flags a b)

theorem sub8_eq (a b : Byte) : sub8 a b = ⟨BitVec.ofNat 8 (256 + a.toNat - b.toNat), subFlags a b⟩ := by
  have hresult : a - b = BitVec.ofNat 8 (256 + a.toNat - b.toNat) := eq_ofNat_of_toNat_mod (by bv_omega)
  exact congrArg₂ AluOut.mk ((sub8_result a b).trans hresult) (sub8_flags a b)

/-- A result that writes Z alone, which is told by when the result is 0. -/
theorem zeroOut_eq {r r' : Byte} {p : Prop} [Decidable p] (hr : r = r') (hz : r = 0#8 ↔ p) :
    zeroOut r = ⟨r', zeroFlag (decide p)⟩ := by
  rw [zeroOut, FlagUpdate.ofZero, beq_eq_decide, decide_eq_decide.mpr hz, hr]
  rfl

theorem inc8_eq (a : Byte) : inc8 a = BitVec.ofNat 8 (a.toNat + 1) :=
  eq_ofNat_of_toNat_mod (BitVec.toNat_add a 1#8)

theorem dec8_eq (a : Byte) : dec8 a = BitVec.ofNat 8 (a.toNat + 255) :=
  eq_ofNat_of_toNat_mod (by rw [dec8]; bv_omega)

theorem inc8_eq_zero_iff (a : Byte) : inc8 a = 0#8 ↔ a = 0xFF#8 := by
  rw [inc8]; bv_omega

theorem dec8_eq_zero_iff (a : Byte) : dec8 a = 0#8 ↔ a = 0x01#8 := sub_eq_zero

theorem complement_eq (a : Byte) : ~~~a = BitVec.ofNat 8 (255 - a.toNat) :=
  eq_ofNat_of_toNat_mod (by rw [BitVec.toNat_not]; omega)

theorem complement_eq_zero_iff (a : Byte) : ~~~a = 0#8 ↔ a = 0xFF#8 := BitVec.not_eq_comm

theorem rotateLeft_eq (a : Byte) (c : Bool) :
    rotateLeft a c = ⟨BitVec.ofNat 8 (2 * a.toNat + c.toNat), carryFlag (decide (128 ≤ a.toNat))⟩ :=
  congrArg₂ AluOut.mk (eq_ofNat_of_toNat_mod (rotateLeft_result_toNat a c)) (congrArg carryFlag (topBit_eq_decide a))

theorem rotateRight_eq (a : Byte) (c : Bool) :
    rotateRight a c = ⟨BitVec.ofNat 8 (a.toNat / 2 + 128 * c.toNat), carryFlag (decide (a.toNat % 2 = 1))⟩ := by
  have hresult : (rotateRight a c).result.toNat = (a.toNat / 2 + 128 * c.toNat) % 256 := by
    rw [← rotateRight_result_toNat, Nat.mod_eq_of_lt (rotateRight a c).result.isLt]
  exact congrArg₂ AluOut.mk (eq_ofNat_of_toNat_mod hresult) (congrArg carryFlag (Nat.testBit_zero a.toNat))

theorem swapNibbles_eq (a : Byte) : swapNibbles a = BitVec.ofNat 8 (a.toNat % 16 * 16 + a.toNat / 16) := by
  have hlt := a.isLt
  have hhigh : (a.extractLsb' 4 4).toNat = a.toNat / 16 := by
    rw [BitVec.extractLsb'_toNat, Nat.shiftRight_eq_div_pow]
    omega
  refine eq_ofNat_of_toNat_mod ?_
  rw [swapNibbles, BitVec.toNat_append, ← Nat.shiftLeft_add_eq_or_of_lt (BitVec.isLt _), Nat.shiftLeft_eq,
    lowNibble_toNat, hhigh]
  omega

/-! ### The statements about the byte-oriented instructions -/

/-- Settles O21: W + f as a number, with its carries, is `add8_eq`. -/
theorem addwfAddsWAndF : Obligations.AddwfAddsWAndF := fun _ _ _ hinv hok =>
  completesWith_of_byteOp rfl hinv hok (add8_eq _ _)

/-- Settles O22: f - W as a number, with its reversed borrows, is `sub8_eq`. -/
theorem subwfSubtractsWFromF : Obligations.SubwfSubtractsWFromF := fun _ _ _ hinv hok =>
  completesWith_of_byteOp rfl hinv hok (sub8_eq _ _)

/-- Settles O23: each result is 0 when the operands are as the statement says. -/
theorem logicOfWAndF : Obligations.LogicOfWAndF := fun _ _ _ hinv hok =>
  ⟨completesWith_of_byteOp rfl hinv hok (zeroOut_eq rfl Iff.rfl),
    completesWith_of_byteOp rfl hinv hok (zeroOut_eq rfl BitVec.or_eq_zero_iff),
    completesWith_of_byteOp rfl hinv hok (zeroOut_eq rfl BitVec.xor_eq_zero_iff)⟩

/-- Settles O24: ~f is 255 - f, and 0 for FFh alone. -/
theorem complementAndMoveOfF : Obligations.ComplementAndMoveOfF := fun _ _ _ hinv hok =>
  ⟨completesWith_of_byteOp rfl hinv hok (zeroOut_eq (complement_eq _) (complement_eq_zero_iff _)),
    completesWith_of_byteOp rfl hinv hok (zeroOut_eq rfl Iff.rfl)⟩

/-- Settles O25: f + 1 is 0 for FFh alone, f - 1 for 01h alone. -/
theorem incrementAndDecrementOfF : Obligations.IncrementAndDecrementOfF := fun _ _ _ hinv hok =>
  ⟨completesWith_of_byteOp rfl hinv hok (zeroOut_eq (inc8_eq _) (inc8_eq_zero_iff _)),
    completesWith_of_byteOp rfl hinv hok (zeroOut_eq (dec8_eq _) (dec8_eq_zero_iff _))⟩

/-- Settles O26: the skip is on the result, and the result is 0 for one value of the operand. -/
theorem incrementAndDecrementThatSkip : Obligations.IncrementAndDecrementThatSkip := by
  intro s f d hinv hok
  rw [← inc8_eq, ← dec8_eq, ← decide_eq_decide.mpr (inc8_eq_zero_iff _), ← decide_eq_decide.mpr (dec8_eq_zero_iff _),
    ← beq_eq_decide, ← beq_eq_decide]
  exact ⟨completesWith_of_byteOpSkip rfl hinv hok rfl, completesWith_of_byteOpSkip rfl hinv hok rfl⟩

/-- Settles O27: both rotates move the old C in, whatever the destination. -/
theorem rotatesOfF : Obligations.RotatesOfF := fun _ _ _ hinv hok =>
  ⟨completesWith_of_byteOp rfl hinv hok (rotateLeft_eq _ _), completesWith_of_byteOp rfl hinv hok (rotateRight_eq _ _)⟩

/-- Settles O28: exchanging nibbles as a number is `swapNibbles_eq`. -/
theorem swapfExchangesNibbles : Obligations.SwapfExchangesNibbles := fun _ _ _ hinv hok =>
  completesWith_of_byteOp rfl hinv hok (congrArg plainOut (swapNibbles_eq _))

/-- A write without a read draws no free value. -/
theorem draws_of_storeOp {s t : State} {f : FileField} {out : AluOut} (h : storeOp s f out = .next t) :
    t.draws = s.draws := by
  obtain ⟨-, rfl⟩ := storeOp_next h
  exact poke_draws ..

/-- Settles O29: both are `storeOp`, which reads nothing. -/
theorem clrfAndMovwfWriteF : Obligations.ClrfAndMovwfWriteF := by
  intro s f hinv hok
  refine ⟨completesWith_of_storeOp rfl hinv hok, completesWith_of_storeOp rfl hinv hok, fun t ht => ?_⟩
  obtain hclrf | hmovwf := ht
  · exact draws_of_storeOp (out := zeroOut 0x00#8) hclrf
  · exact draws_of_storeOp (out := plainOut s.w) hmovwf

/-- Settles O30: CLRW is a literal operation with the literal 0. -/
theorem clrwClearsWAndNopDoesNothing : Obligations.ClrwClearsWAndNopDoesNothing := fun _ =>
  ⟨literalResult_of_literalOp rfl, rfl⟩

end Sys2Proof.Machine
end

section
/-! The bit-oriented instructions (42_bit_oriented.md R132 to R135): a bit cleared or set as a difference or a sum of
numbers, and the skip on a tested bit. -/

namespace Sys2Proof.Machine

/-! ### Clearing and setting bits, as numbers -/

/-- Clearing the bits of a mask takes away those that were set: the two parts of a word add up to it without a carry. -/
theorem toNat_and_not {n : Nat} (x m : BitVec n) : (x &&& ~~~m).toNat = x.toNat - (x &&& m).toNat := by
  have hdisjoint : (x &&& ~~~m) &&& (x &&& m) = 0#n := by ext i; grind
  have hunion : (x &&& ~~~m) ||| (x &&& m) = x := by ext i; grind
  have hsum := BitVec.toNat_add_of_and_eq_zero hdisjoint
  rw [BitVec.add_eq_or_of_and_eq_zero _ _ hdisjoint, hunion] at hsum
  omega

/-- Setting the bits of a mask adds those that were clear. -/
theorem toNat_or {n : Nat} (x m : BitVec n) : (x ||| m).toNat = x.toNat + (m.toNat - (m &&& x).toNat) := by
  have hdisjoint : x &&& (m &&& ~~~x) = 0#n := by ext i; grind
  have hunion : x ||| (m &&& ~~~x) = x ||| m := by ext i; grind
  rw [← toNat_and_not, ← BitVec.toNat_add_of_and_eq_zero hdisjoint, BitVec.add_eq_or_of_and_eq_zero _ _ hdisjoint,
    hunion]

theorem bitMask_toNat (b : BitField) : (bitMask b).toNat = 2 ^ b.toNat := BitVec.toNat_twoPow_of_lt b.isLt

theorem bitMask_and_toNat (x : Byte) (b : BitField) :
    (bitMask b &&& x).toNat = if x.getLsbD b.toNat then 2 ^ b.toNat else 0 := by
  have hand : bitMask b &&& x = if x.getLsbD b.toNat then bitMask b else 0#8 := BitVec.twoPow_and x b.toNat
  rw [hand, apply_ite BitVec.toNat, bitMask_toNat]
  rfl

theorem clearBit_eq (x : Byte) (b : BitField) :
    x &&& ~~~(bitMask b) = BitVec.ofNat 8 (x.toNat - (if x.getLsbD b.toNat then 2 ^ b.toNat else 0)) := by
  rw [← bitMask_and_toNat, BitVec.and_comm (bitMask b), ← toNat_and_not, BitVec.ofNat_toNat, BitVec.setWidth_eq]

theorem setBit_eq (x : Byte) (b : BitField) :
    x ||| bitMask b = BitVec.ofNat 8 (x.toNat + (if x.getLsbD b.toNat then 0 else 2 ^ b.toNat)) := by
  have hadded : (if x.getLsbD b.toNat then 0 else 2 ^ b.toNat) = (bitMask b).toNat - (bitMask b &&& x).toNat := by
    rw [bitMask_toNat, bitMask_and_toNat]
    split <;> simp
  rw [hadded, ← toNat_or, BitVec.ofNat_toNat, BitVec.setWidth_eq]

/-! ### The skip on a tested bit -/

/-- A bit test of an accessible register moves the PC and the cycle count on by one more when its condition holds, and
writes nothing; the read may draw a free value. -/
theorem bitTest_completes {s : State} {f : FileField} (cond : Byte → Bool) (hok : OperandOk s f) :
    ∃ t, bitTest s f cond = .next t
      ∧ t = { s with
          pc := if cond (operandValue s f) then nextPc s.dev s.pc else s.pc
          cycles := if cond (operandValue s f) then s.cycles + 1 else s.cycles
          draws := t.draws } :=
  ⟨_, bitTest_of_ok s f cond ((accessFault_none_iff _ _).mpr hok), rfl⟩

/-! ### The statements about the bit-oriented instructions -/

/-- Settles O31: the cleared bit is a difference (`clearBit_eq`), the set bit a sum (`setBit_eq`). -/
theorem bitClearAndBitSet : Obligations.BitClearAndBitSet := fun _ _ _ hinv hok =>
  ⟨completesWith_of_byteOp rfl hinv hok (congrArg plainOut (clearBit_eq _ _)),
    completesWith_of_byteOp rfl hinv hok (congrArg plainOut (setBit_eq _ _))⟩

/-- Settles O32: both are `bitTest`, on the bit being clear and on the bit being set. -/
theorem bitTestsSkip : Obligations.BitTestsSkip := by
  intro s f b hok
  have hclear := bitTest_completes (fun v => !v.getLsbD b.toNat) hok
  simp only [Bool.not_eq_true', ← Bool.not_eq_true, ite_not] at hclear
  exact ⟨hclear, bitTest_completes (fun v => v.getLsbD b.toNat) hok⟩

end Sys2Proof.Machine
end

section
/-! The literal and control instructions (43_literal_control.md R136 to R148): results as numbers, the stack at its two
limits, and TO and PD as masks of STATUS. -/

namespace Sys2Proof.Machine

/-! ### Literal results -/

theorem literalResult_of_eq {i : Instr} {s : State} {out : AluOut} {r : Byte} {u : FlagUpdate}
    (hexec : exec i s = literalOp s out) (hout : out = ⟨r, u⟩) : LiteralResult i s r u :=
  literalResult_of_literalOp (hexec.trans (congrArg (literalOp s) hout))

/-- Settles O33: W + k and k - W as numbers, with their status bits, are `add8_eq` and `sub8_eq`. -/
theorem addAndSubtractLiteral : Obligations.AddAndSubtractLiteral := fun s k =>
  ⟨literalResult_of_eq rfl (add8_eq s.w k), literalResult_of_eq rfl (sub8_eq k s.w)⟩

/-- Settles O34: each result is 0 when the operands are as the statement says; MOVLW affects no status bit, so its status
write leaves STATUS as it is. -/
theorem logicAndMoveOfLiteral : Obligations.LogicAndMoveOfLiteral := fun _ _ =>
  ⟨literalResult_of_eq rfl (zeroOut_eq rfl Iff.rfl),
    literalResult_of_eq rfl (zeroOut_eq rfl BitVec.or_eq_zero_iff),
    literalResult_of_eq rfl (zeroOut_eq rfl BitVec.xor_eq_zero_iff),
    rfl⟩

/-! ### CALL and GOTO -/

theorem push_eq_overflow_of_full {s : State} (h : s.dev.stackDepth ≤ s.stack.length) (v : ProgAddr) :
    push s v = .error .stackOverflow := if_pos h

theorem exec_call (k : BitVec 11) (s : State) :
    exec (.call k) s = finish ((push s s.pc).map fun t => t.loadPc (pageTarget s k)) := rfl

/-- Settles O35: a push has room or overflows, and the target as a number is `pageTarget_toNat`. -/
theorem callPushesAndJumps : Obligations.CallPushesAndJumps := by
  refine fun s k => ⟨fun hroom => ?_, fun hfull => ?_⟩
  · rw [exec_call, (push_ok_iff s _ s.pc).mpr ⟨hroom, rfl⟩]
    exact ⟨_, rfl, pageTarget_toNat s k, rfl⟩
  · rw [exec_call, push_eq_overflow_of_full hfull]
    rfl

/-- Settles O36: the target as a number is `pageTarget_toNat`. -/
theorem gotoJumps : Obligations.GotoJumps := fun s k => ⟨_, rfl, pageTarget_toNat s k, rfl⟩

/-! ### The returns -/

theorem returnToCaller_eq_underflow_of_empty {s : State} (h : s.stack = []) :
    returnToCaller s = .error .stackUnderflow := by
  rw [returnToCaller, pop, h]
  rfl

theorem interruptReturn_eq_underflow_of_empty {s : State} (h : s.stack = []) :
    interruptReturn s = .error .stackUnderflow := by
  rw [interruptReturn, returnToCaller_eq_underflow_of_empty h]
  rfl

/-- Settles O37: each return is a pop, of the stack it finds; GIE is set as bit 7 of INTCON. -/
theorem returnsPopThePc : Obligations.ReturnsPopThePc := by
  refine ⟨fun s a rest k hstack => ⟨?_, ?_, ?_⟩, fun s k hempty => ⟨?_, ?_, ?_⟩⟩
  · exact congrArg finish ((returnToCaller_ok_iff s _).mpr ⟨a, rest, hstack, rfl⟩)
  · exact congrArg finish ((returnToCaller_ok_iff (s.setW k) _).mpr ⟨a, rest, hstack, rfl⟩)
  · exact congrArg finish ((interruptReturn_ok_iff s _).mpr ⟨a, rest, hstack, rfl⟩)
  · exact congrArg finish (returnToCaller_eq_underflow_of_empty hempty)
  · exact congrArg finish (returnToCaller_eq_underflow_of_empty (s := s.setW k) hempty)
  · exact congrArg finish (interruptReturn_eq_underflow_of_empty hempty)

/-- Settles O58: the CALL has put its return address on top of its own stack (O52), and the RETURN pops it (O37). -/
theorem returnUndoesCall : Obligations.ReturnUndoesCall := by
  intro s t u k hcall hstack
  have hpushed : t.stack = s.pc :: s.stack := onlyCallsAndReturnsTouchTheStack (.call k) s t hcall
  obtain ⟨hpops, -⟩ := returnsPopThePc
  obtain ⟨hreturn, -⟩ := hpops u s.pc s.stack 0x00#8 (hstack.trans hpushed)
  exact ⟨_, hreturn, rfl, rfl⟩

/-! ### CLRWDT and SLEEP -/

/-- TO and PD both set, as one mask. -/
theorem putToPd_set_set (st : Byte) : putToPd st true true = st ||| 0x18#8 := BitVec.or_assoc st 0x10#8 0x08#8

/-- TO set and PD cleared, as two masks. -/
theorem putToPd_set_clear (st : Byte) : putToPd st true false = (st ||| 0x10#8) &&& 0xF7#8 := rfl

/-- Settles O38: the status write of the two instructions is a write of masks, and the rest is `State.clearWdt`. -/
theorem clrwdtAndSleepWriteToAndPd : Obligations.ClrwdtAndSleepWriteToAndPd := by
  intro s
  rw [← putToPd_set_set, ← putToPd_set_clear]
  exact ⟨rfl, rfl⟩

end Sys2Proof.Machine
end

section
/-! The exceptions (60_exceptions.md): the interrupt request and its flags (R152 to R154), interrupt entry (R155), sleep and
wake-up (R168, R169), the Watchdog (R163, R164), and an interrupt with its return. -/

namespace Sys2Proof.Machine

/-! ### The request and the wake-up event -/

theorem wdtTimesOut_iff (s : State) (inp : StepInput) :
    wdtTimesOut s inp = true ↔ inp.wdtTimeout = true ∧ s.dev.configWdte = true := by
  unfold wdtTimesOut Device.wdtModel
  cases s.dev.configWdte <;> simp

theorem wakeEvent_iff (s : State) (inp : StepInput) :
    wakeEvent s inp = true ↔ wdtTimesOut s inp = true ∨ intPending s = true := by
  simp only [wakeEvent, Bool.or_eq_true]

/-- Where the platform does not say, the default device's formula decides. -/
theorem intPending_of_not_given {s : State} (h : s.platformPending = none) : intPending s = defaultIntPending s := by
  rw [intPending, h, Option.getD_none]

theorem intPending_of_given {s : State} {b : Bool} (h : s.platformPending = some b) : intPending s = b := by
  rw [intPending, h, Option.getD_some]

/-- A request looks at the flags and their enables in INTCON, never at GIE. -/
theorem intPending_setIntcon {s : State} {v : Byte} (h : ∀ j < 7, v.getLsbD j = s.intcon.getLsbD j) :
    intPending { s with intcon := v } = intPending s := by
  have hdefault : defaultIntPending { s with intcon := v } = defaultIntPending s := by
    simp only [defaultIntPending, h 0 (by decide), h 1 (by decide), h 2 (by decide), h 3 (by decide), h 4 (by decide),
      h 5 (by decide), h 6 (by decide)]
  rw [intPending, hdefault, intPending]

/-- A mask that has bit 7 alone reaches no flag and no enable. -/
theorem getLsbD_xor_gie (v : Byte) {j : Nat} (hj : j < 7) : (v ^^^ 0x80#8).getLsbD j = v.getLsbD j := by
  have hmask : ∀ j < 7, (0x80#8).getLsbD j = false := by decide
  rw [BitVec.getLsbD_xor, hmask j hj, Bool.xor_false]

/-- Settles O13. -/
theorem interruptRequestAndWakeUpConditions : Obligations.InterruptRequestAndWakeUpConditions := by
  intro s inp
  refine ⟨fun hnone => ?_, fun b hgiven => intPending_of_given hgiven,
    intPending_setIntcon fun j hj => getLsbD_xor_gie s.intcon hj, ?_⟩
  · rw [intPending_of_not_given hnone, defaultIntPending]
    simp only [Bool.or_eq_true, Bool.and_eq_true, or_assoc]
  · rw [wakeEvent_iff, wdtTimesOut_iff]

/-! ### The interrupt flags -/

/-- INTEDG selects the rising or the falling edge (10_state.md R30). -/
theorem intEdgeSeen_eq (o : Byte) (before after : Bool) :
    intEdgeSeen o before after = if o.getLsbD 6 then !before && after else before && !after := by
  unfold intEdgeSeen intEdge
  cases o.getLsbD 6 <;> rfl

theorem intEdgeAmong_eq (o : Byte) (pin : Bool) (levels : List Bool) :
    intEdgeAmong o pin levels =
      ((pin :: levels).zip levels).any (fun p => if o.getLsbD 6 then !p.1 && p.2 else p.1 && !p.2) := by
  simp only [intEdgeAmong_eq_any, intEdgeSeen_eq]

/-- Settles O12: the flags of the events, at the boundary and inside the step, are `flagsOf`. -/
theorem interruptFlagsAreRaisedAndNeverCleared : Obligations.InterruptFlagsAreRaisedAndNeverCleared := by
  intro s before during pin edgeAmong
  obtain ⟨hportB, hedge, htimer⟩ := flagsOf_getLsbD s.optionReg s.intPin before
  obtain ⟨hportB', hedge', htimer'⟩ := flagsOf_getLsbD s.optionReg pin during
  rw [intEdgeAmong_eq] at hedge hedge'
  have hraised (j : Nat) : (takeInput s).intcon.getLsbD j =
      (s.intcon.getLsbD j || (flagsOf s.optionReg s.intPin before).getLsbD j) := raiseFlags_getLsbD _ _ j
  refine ⟨?_, ?_, ?_, raiseFlags_enables _ _, hedge', htimer', hportB', rfl, rfl, raiseFlags_getLsbD _ _⟩
  · rw [hraised, hedge]
  · rw [hraised, htimer]
  · rw [hraised, hportB]

/-! ### Interrupt entry -/

/-- Awake, with no instruction owed, GIE set and a request pending, the step is an interrupt entry. -/
theorem step_of_entryDue {s : State} (hreset : NoReset s) (hawake : s.asleep = false) (howed : s.mustExecuteOne = false)
    (hgie : (takeInput s).gie = true) (hpending : intPending (takeInput s) = true) :
    step s = landFlags (finish (interruptEntry (takeInput s))) := by
  rw [step_of_no_reset s hreset, hawake, howed, hgie, hpending]
  rfl

theorem interruptEntry_eq_overflow_of_full {s : State} (h : s.dev.stackDepth ≤ s.stack.length) :
    interruptEntry s = .error .stackOverflow := by
  rw [interruptEntry, push_eq_overflow_of_full h]
  rfl

/-- Settles O7: the push has room or overflows, and clearing GIE is a mask of INTCON. -/
theorem interruptEntrySavesThePc : Obligations.InterruptEntrySavesThePc := by
  intro s hreset hawake howed hgie hpending
  rw [step_of_entryDue hreset hawake howed hgie hpending]
  refine ⟨fun hroom => ?_, fun hfull => ?_⟩
  · rw [(interruptEntry_ok_iff (takeInput s) _).mpr ⟨hroom, rfl⟩]
    rfl
  · rw [interruptEntry_eq_overflow_of_full (s := takeInput s) hfull]
    rfl

/-! ### Sleep and wake-up -/

/-- Asleep with nothing that wakes it, the device takes its input. -/
theorem step_of_sleeping {s : State} (hreset : NoReset s) (hasleep : s.asleep = true)
    (hquiet : wakeEvent (takeInput s) (currentInput s) = false) : step s = .next (takeInput s).landMidFlags := by
  rw [step_of_no_reset s hreset, hasleep, hquiet]
  rfl

theorem step_of_waking {s : State} (hreset : NoReset s) (hasleep : s.asleep = true)
    (hwake : wakeEvent (takeInput s) (currentInput s) = true) :
    step s = .next (wake (takeInput s) (currentInput s)).landMidFlags := by
  rw [step_of_no_reset s hreset, hasleep, hwake]
  rfl

/-- A raised flag stays. -/
theorem raiseFlags_getLsbD_of_set {x : Byte} {j : Nat} (h : x.getLsbD j = true) (flags : BitVec 3) :
    (raiseFlags x flags).getLsbD j = true := by
  rw [raiseFlags_getLsbD, h, Bool.true_or]

/-- Settles O8: the step is the taking of its input, with the flags raised inside it. -/
theorem sleepingDeviceExecutesNothing : Obligations.SleepingDeviceExecutesNothing := by
  intro s hreset hasleep hquiet
  refine ⟨_, step_of_sleeping hreset hasleep hquiet, rfl, ?_, fun j hj => ?_⟩
  · exact (raiseFlags_enables _ _).trans (raiseFlags_enables _ _)
  · exact raiseFlags_getLsbD_of_set (raiseFlags_getLsbD_of_set hj _) _

/-- `Wake()` clears TO on a time-out and leaves it otherwise. -/
theorem wake_timeOut (s : State) (inp : StepInput) : (wake s inp).timeOut = (s.timeOut && !wdtTimesOut s inp) := by
  unfold State.timeOut wake
  cases wdtTimesOut s inp with
  | true => rw [Bool.not_true, Bool.and_false]; exact putBit_getLsbD s.status 4 false (by decide) 4
  | false => exact (Bool.and_true _).symm

/-- `Wake()` leaves every bit of STATUS but TO. -/
theorem wake_statusBits (s : State) (inp : StepInput) : (wake s inp).status &&& 0xEF#8 = s.status &&& 0xEF#8 := by
  unfold wake
  cases wdtTimesOut s inp with
  | true => exact BitVec.and_assoc s.status 0xEF#8 0xEF#8
  | false => rfl

/-- Settles O9: the step is `wake`, with the flags raised inside it. -/
theorem wakeUpResumesAfterTheSleep : Obligations.WakeUpResumesAfterTheSleep := by
  intro s hreset hasleep hwake
  refine ⟨_, step_of_waking hreset hasleep hwake, rfl, wake_timeOut (takeInput s) _, wake_statusBits (takeInput s) _, ?_,
    rfl⟩
  rw [← takeInput_gie s]
  rfl

/-- Settles O10: the wake-up (O9) owes an instruction, and a step with an instruction owed runs it. -/
theorem oneInstructionRunsBeforeTheInterrupt : Obligations.OneInstructionRunsBeforeTheInterrupt := by
  intro s t word i hreset hasleep hpending hgie hstep hreset' hword hdecode
  obtain ⟨t', hstep', hawake, -, -, howed, ht⟩ :=
    wakeUpResumesAfterTheSleep s hreset hasleep ((wakeEvent_iff _ _).mpr (.inr hpending))
  obtain rfl : t = t' := Host.Outcome.next.inj (hstep.symm.trans hstep')
  have howed : t.mustExecuteOne = true := by rw [howed, hpending, hgie, Bool.and_true, Bool.or_true]
  have hpc : t.pc = s.pc := by rw [ht]; rfl
  have hprogram : t.program = s.program := by rw [ht]; rfl
  have hfetch : t.program[t.pc.toNat]? = some word := by rw [hprogram, hpc, hword]
  exact ⟨hpc, step_of_fetched ⟨hreset', hawake, .inl howed⟩ hfetch hdecode, rfl⟩

/-! ### The Watchdog -/

/-- With no reset requested, a Watchdog time-out is a reset awake and none asleep (60_exceptions.md R164). -/
theorem resetDue_of_timeOut {s : State} {inp : StepInput} (hrequest : inp.reset = none)
    (htimeOut : wdtTimesOut s inp = true) : resetDue s inp = if s.asleep then none else some .watchdog := by
  rw [resetDue, hrequest, htimeOut]
  cases s.asleep <;> rfl

/-- Bytes that agree under a mask agree on a field that the mask covers. -/
theorem extractLsb'_eq_of_mask {x y m : Byte} (h : x &&& m = y &&& m) (start len : Nat)
    (hm : m.extractLsb' start len = BitVec.allOnes len) : x.extractLsb' start len = y.extractLsb' start len := by
  have hfield := congrArg (BitVec.extractLsb' start len) h
  rwa [BitVec.extractLsb'_and, BitVec.extractLsb'_and, hm, BitVec.and_allOnes, BitVec.and_allOnes] at hfield

/-- Bytes that agree on their low bits agree on each of these. -/
theorem getLsbD_eq_of_extractLsb' {x y : Byte} {len : Nat} (h : x.extractLsb' 0 len = y.extractLsb' 0 len) {j : Nat}
    (hj : j < len) : x.getLsbD j = y.getLsbD j := by
  simpa [hj] using congrArg (fun v => v.getLsbD j) h

/-- A field of a field. -/
theorem extractLsb'_extractLsb' (x : Byte) (outer : Nat) {outerLen start len : Nat} (h : start + len ≤ outerLen) :
    (x.extractLsb' outer outerLen).extractLsb' start len = x.extractLsb' (outer + start) len := by
  apply BitVec.eq_of_getLsbD_eq
  intro i hi
  simp only [BitVec.getLsbD_extractLsb', hi, show start + i < outerLen by omega, decide_true, Bool.true_and,
    Nat.add_assoc]

/-- RP1:RP0 and IRP are the bits of STATUS from 5 on. -/
theorem bankBits_eq {x y : Byte} (h : x.extractLsb' 5 3 = y.extractLsb' 5 3) :
    x.extractLsb' 5 2 = y.extractLsb' 5 2 ∧ x.extractLsb' 7 1 = y.extractLsb' 7 1 := by
  have field (start len : Nat) (hlen : start + len ≤ 3) :
      x.extractLsb' (5 + start) len = y.extractLsb' (5 + start) len := by
    rw [← extractLsb'_extractLsb' x 5 hlen, h, extractLsb'_extractLsb' y 5 hlen]
  exact ⟨field 0 2 (by decide), field 2 1 (by decide)⟩

/-- Settles O11: awake the step is the Watchdog reset of R161's table, asleep it is the wake-up (O9), and the invariant says
that PD is 0 there. -/
theorem watchdogResetsAwakeAndWakesAsleep : Obligations.WatchdogResetsAwakeAndWakesAsleep := by
  intro s hinv hrequest htimeOut hwdte
  have hout : wdtTimesOut s (currentInput s) = true := (wdtTimesOut_iff _ _).mpr ⟨htimeOut, hwdte⟩
  have hdue := resetDue_of_timeOut (s := takeInput s) hrequest hout
  cases hasleep : s.asleep with
  | false =>
    rw [takeInput_asleep, hasleep] at hdue
    have halu := warmReset_aluBits .watchdog (takeInput s)
    obtain ⟨hrp, hirp⟩ := bankBits_eq (y := 0#8) (warmReset_bankBits .watchdog (takeInput s))
    obtain ⟨hto, hpd⟩ := Prod.mk.inj (warmReset_toPd .watchdog (takeInput s))
    exact ⟨warmReset .watchdog (takeInput s), step_of_reset s .watchdog hdue, hto, rfl, rfl, rfl, rfl,
      getLsbD_eq_of_extractLsb' halu (by decide), getLsbD_eq_of_extractLsb' halu (by decide),
      getLsbD_eq_of_extractLsb' halu (by decide), fun _ => ⟨hpd, rfl, rfl, hrp, hirp⟩, nofun⟩
  | true =>
    rw [takeInput_asleep, hasleep] at hdue
    obtain ⟨-, hsleep⟩ := s.inv_iff.mp hinv
    obtain ⟨-, hpd, -⟩ := hsleep hasleep
    obtain ⟨t, hstep, hawake, hto, hstatus, -, ht⟩ :=
      wakeUpResumesAfterTheSleep s hdue hasleep ((wakeEvent_iff _ _).mpr (.inl hout))
    have hlow := extractLsb'_eq_of_mask hstatus 0 4 (by decide)
    obtain ⟨hrp, hirp⟩ := bankBits_eq (extractLsb'_eq_of_mask hstatus 5 3 (by decide))
    rw [hout, Bool.not_true, Bool.and_false] at hto
    refine ⟨t, hstep, hto, hawake, ?_, ?_, ?_,
      getLsbD_eq_of_extractLsb' hlow (by decide), getLsbD_eq_of_extractLsb' hlow (by decide),
      getLsbD_eq_of_extractLsb' hlow (by decide), nofun,
      fun _ => ⟨(getLsbD_eq_of_extractLsb' hlow (by decide)).trans hpd, ?_, ?_, hrp, hirp⟩⟩
    all_goals rw [ht]; rfl

/-! ### An interrupt with its return -/

/-- Raising flags touches no bit from 3 on. -/
theorem raiseFlags_getLsbD_of_ge (x : Byte) (flags : BitVec 3) {j : Nat} (hj : 3 ≤ j) :
    (raiseFlags x flags).getLsbD j = x.getLsbD j := by
  rw [raiseFlags_getLsbD, BitVec.getLsbD_of_ge flags j hj, Bool.or_false]

/-- The environment raises flags, and touches neither an enable nor GIE. -/
theorem takeInput_intcon_of_ge (s : State) {j : Nat} (hj : 3 ≤ j) :
    (takeInput s).intcon.getLsbD j = s.intcon.getLsbD j := raiseFlags_getLsbD_of_ge _ _ hj

/-- The mask that clears GIE. -/
theorem getLsbD_clearGie (x : Byte) (j : Nat) : (x &&& 0x7F#8).getLsbD j = if j = 7 then false else x.getLsbD j :=
  putBit_getLsbD x 7 false (by decide) j

/-- The mask that sets GIE. -/
theorem getLsbD_setGie (x : Byte) (j : Nat) : (x ||| 0x80#8).getLsbD j = if j = 7 then true else x.getLsbD j :=
  putBit_getLsbD x 7 true (by decide) j

/-- GIE and the enables are the bits of INTCON from 3 on. -/
theorem enables_congr {x y : Byte} (h : ∀ j, 3 ≤ j → x.getLsbD j = y.getLsbD j) : x &&& 0xF8#8 = y &&& 0xF8#8 := by
  have hflags : ∀ j < 3, (0xF8#8).getLsbD j = false := by decide
  apply BitVec.eq_of_getLsbD_eq
  intro j _
  rw [BitVec.getLsbD_and, BitVec.getLsbD_and]
  rcases Nat.lt_or_ge j 3 with hj | hj
  · rw [hflags j hj, Bool.and_false, Bool.and_false]
  · rw [h j hj]

/-- `t` has the registers of `s`, all but INTCON, the PC and the stack: besides these an interrupt entry and a RETFIE change
only what the sequencer and the environment keep for themselves. -/
def KeepsRegisters (s t : State) : Prop :=
  t = { s with
    intcon := t.intcon, pc := t.pc, stack := t.stack, mustExecuteOne := t.mustExecuteOne, cycles := t.cycles,
    intPin := t.intPin, peripheralReq := t.peripheralReq, midFlags := t.midFlags,
    platformPending := t.platformPending, ioIn := t.ioIn, inputs := t.inputs }

theorem KeepsRegisters.trans {s t u : State} (hst : KeepsRegisters s t) (htu : KeepsRegisters t u) :
    KeepsRegisters s u :=
  Eq.trans htu (congrArg (fun r : State => { r with
    intcon := u.intcon, pc := u.pc, stack := u.stack, mustExecuteOne := u.mustExecuteOne, cycles := u.cycles,
    intPin := u.intPin, peripheralReq := u.peripheralReq, midFlags := u.midFlags,
    platformPending := u.platformPending, ioIn := u.ioIn, inputs := u.inputs }) hst)

theorem KeepsRegisters.contents_eq {s t : State} (h : KeepsRegisters s t) (hpc : t.pc = s.pc) {c : FileCell}
    (hc : c ≠ .intcon) : contents t c = contents s c := by
  rw [h, hpc]
  cases c with
  | intcon => contradiction
  | status | optionReg | pcon | tmr0 | io | gpr | indf | fsr | pcl | pclath | unimplemented => rfl

/-- What an interrupt entry with room on the stack has done, whatever flags came with it (60_exceptions.md R155). -/
theorem entered_of_step {s t : State} (hreset : NoReset s) (hawake : s.asleep = false) (howed : s.mustExecuteOne = false)
    (hgie : s.gie = true) (hpending : intPending (takeInput s) = true) (hroom : s.stack.length < s.dev.stackDepth)
    (hstep : step s = .next t) :
    KeepsRegisters s t ∧ t.pc = 0x0004#13 ∧ t.stack = s.pc :: s.stack
      ∧ ∀ j, 3 ≤ j → t.intcon.getLsbD j = if j = 7 then false else s.intcon.getLsbD j := by
  obtain ⟨hentry, -⟩ := interruptEntrySavesThePc s hreset hawake howed ((takeInput_gie s).trans hgie) hpending
  obtain rfl := Host.Outcome.next.inj ((hentry hroom).symm.trans hstep)
  refine ⟨rfl, rfl, rfl, fun j hj => ?_⟩
  rw [landMidFlags_intcon, raiseFlags_getLsbD_of_ge _ _ hj, getLsbD_clearGie, takeInput_intcon_of_ge s hj]

/-- A step that runs RETFIE pops the PC and sets GIE (43_literal_control.md R143). -/
theorem returned_of_retfie {s : State} {a : ProgAddr} {rest : List ProgAddr} (hruns : RunsInstruction s)
    (hword : s.program[s.pc.toNat]? = some 0x0009#14) (hstack : s.stack = a :: rest) :
    ∃ t, step s = .next t ∧ KeepsRegisters s t ∧ t.pc = a ∧ t.stack = rest ∧ t.mustExecuteOne = false
      ∧ ∀ j, 3 ≤ j → t.intcon.getLsbD j = if j = 7 then true else s.intcon.getLsbD j := by
  obtain ⟨hreturns, -⟩ := returnsPopThePc
  obtain ⟨-, -, hretfie⟩ := hreturns (fetched s) a rest 0x00#8 hstack
  have hstep := step_of_fetched hruns hword (decode_encode .retfie)
  rw [hretfie, landFlags_next] at hstep
  refine ⟨_, hstep, rfl, rfl, rfl, rfl, fun j hj => ?_⟩
  rw [landMidFlags_intcon, raiseFlags_getLsbD_of_ge _ _ hj, getLsbD_setGie]
  exact congrArg (ite (j = 7) true) (takeInput_intcon_of_ge s hj)

/-- Settles O59: the entry has pushed the PC and cleared GIE, the RETFIE undoes both, and each keeps the registers. -/
theorem interruptAndRetfieAreTransparent : Obligations.InterruptAndRetfieAreTransparent := by
  intro s t hreset hawake howed hgie hpending hroom hhandler hstep hreset'
  obtain ⟨hkept, hpc, hstack, henables⟩ := entered_of_step hreset hawake howed hgie hpending hroom hstep
  have hawake' : t.asleep = false := by rw [hkept, hawake]
  have hgie' : (takeInput t).gie = false := (takeInput_gie t).trans (henables 7 (by decide))
  have hword : t.program[t.pc.toNat]? = some 0x0009#14 := by rw [hpc, hkept]; exact hhandler
  obtain ⟨u, hstep', hkept', hpc', hstack', howed', henables'⟩ :=
    returned_of_retfie ⟨hreset', hawake', .inr (.inl hgie')⟩ hword hstack
  have hsame := hkept.trans hkept'
  have hrestored (j : Nat) (hj : 3 ≤ j) : u.intcon.getLsbD j = s.intcon.getLsbD j := by
    rw [henables' j hj, henables j hj]
    split
    · next h7 => rw [h7]; exact hgie.symm
    · rfl
  refine ⟨u, hstep', hpc', hstack', ?_, ?_, henables' 7 (by decide), enables_congr hrestored,
    fun c hc => hsame.contents_eq hpc' hc, by rw [hsame, hawake], howed', ?_, ?_, ?_⟩
  all_goals rw [hsame]

end Sys2Proof.Machine
end
